-- ==== Sys2Proof/Word.lean ====
section
/-!
DEFINITION. The plain number types of the model: bytes, byte strings, and the index types of the things
the module has a fixed number of (Table 1.1, Table 0.2).
-/
namespace Sys2Proof

/-- One octet. -/
abbrev Byte := BitVec 8
/-- An octet string, lowest address first. -/
abbrev Bytes := List Byte
/-- Choyr sessions 0–15 (R266: at most 16). -/
abbrev Sess := Fin 16
/-- Channel engines CE0–CE12. -/
abbrev EngineId := Fin 13
/-- Laser ports LP0–LP11 and scanner links SL0–SL11. -/
abbrev LaserId := Fin 12
/-- Clover lanes CL0–CL19. -/
abbrev LaneId := Fin 20
/-- Axis channels A0–A3. -/
abbrev AxisId := Fin 4
/-- Scan contexts C0–C511. -/
abbrev CtxId := Fin 512
/-- Address spaces AS0–AS63. -/
abbrev SpaceId := Fin 64
/-- Sync tokens T0–T63. -/
abbrev TokenId := Fin 64
/-- Camera ports CAM0–CAM4. -/
abbrev CamId := Fin 5
/-- Compositor planes P0–P7. -/
abbrev PlaneId := Fin 8
/-- Petals PT0–PT7. -/
abbrev PetalId := Fin 8
/-- Temperature sensors 0–18. -/
abbrev SensorId := Fin 19
/-- DRAM channels DC0, DC1. -/
abbrev ChanId := Fin 2

end Sys2Proof
end

