-- ==== Sys2Proof/Syntax.lean ====
section
/-!
DEFINITION. The commands of the module: one constructor per row of spec/opcode_table.json, in the
table's order, the rows without operands last. Rows written by the host carry the session they come from; rows that report something
observed outside the model (a pin, a sensor, a frame, a measurement) carry what was observed.
-/
namespace Sys2Proof

/-- What a calibration procedure observed and hands to its end (R196–R209). -/
inductive CalObs where
  /-- residuals of the second pass in 0.1 µm, observed errors of the first pass, mean head temperature -/
  | map (residuals : List Nat) (errors : List (Int × Int × Int × Int × Int)) (tHead : Int)
  /-- FOCUS_MAP: residuals in µm and the best-focus points -/
  | focus (residuals : List Nat) (errors : List (Int × Int × Int × Int × Int))
  /-- GATE_ALIGN: the lag in eighth-ticks -/
  | lag (eighths : Int)
  /-- DRIFT_POINT: residuals in 0.1 µm, head temperature, measured drift of x, y gain and offset, z -/
  | drift (residuals : List Nat) (tHead gx gy ox oy oz : Int)
  /-- CROSS_CHECK: per head the largest distance in 0.1 µm -/
  | cross (seam : List Nat)
  /-- POWER_LIN: every reading has been taken -/
  | power
  /-- PD_GAIN: mean raw values with the gate off and on, bands A and B -/
  | pd (offA onA offB onB : Nat)
  /-- LINK_EYE: the error-free phases, bit i for phase i -/
  | eye (phases : BitVec 64)
  /-- SENSOR_OFFSET: readings of sensors 16–18 in 0.01 °C -/
  | sensor (r16 r17 r18 : Int)
  /-- OSC_MODEL: (bin, mean ppb, seconds of data), and the largest deviation -/
  | osc (bins : List (Nat × Int × Nat)) (residual : Nat)
  deriving DecidableEq, Repr

/-- How a peer authenticated a handshake (R365). -/
inductive AuthWay where
  | certificate (fingerprint : Bytes) (chainTrusted : Bool)
  | psk (name : Bytes) (keyMatches : Bool)
  | commission (keyMatches : Bool)
  deriving DecidableEq, Repr

/-- The masters of Table 7.11. -/
inductive Master where
  | fetch | security | ledger | compositor | camera | compression | recorder | spill | dma
  deriving DecidableEq, Repr

/-- Who asks for memory (R314, Table 14.4): a master, or the translation walker and firmware, whose mirror copy in
the other channel reads correctly or not. -/
inductive Requester where
  | unit (m : Master)
  | walker (mirrorOk : Bool)
  deriving DecidableEq, Repr

/-- A firmware slot as the boot ROM finds it (R369). -/
structure FwImage where
  keyOk : Bool
  sigOk : Bool
  securityVersion : Nat
  release : Bool
  deriving DecidableEq, Repr, Inhabited

/-- A delay message of PTP (R294, R297): timestamps at the MII in units of 0.625 ns, those that a message carries in ns. -/
inductive PtpDelay where
  /-- a Delay_Req received -/
  | delayReq (ingress : Nat)
  /-- a Delay_Resp to a Delay_Req that left at `egress` -/
  | delayResp (egress receive : Nat)
  /-- a Pdelay_Req received, its Pdelay_Resp leaving at `egress` -/
  | pdelayReq (ingress egress : Nat)
  /-- a Pdelay_Resp, with what its Follow_Up adds: the turnaround that the peer stamped -/
  | pdelayResp (egress ingress : Nat) (turnaround : Nat)
  deriving DecidableEq, Repr

/-- What a Sync brings beside its origin (R297): correctionField in 2^−16 ns and its timestamp at the MII. -/
structure PtpStamp where
  correction : Int
  ingress : Nat
  deriving DecidableEq, Repr

/-- A PTP message in transit: its type, 0 Sync to 8 Follow_Up and so on, and its flag for two steps (R298). -/
structure PtpKind where
  messageType : Nat
  twoStep : Bool
  deriving DecidableEq, Repr

/-- Where a session comes from: its address, and the uplink or the ring (R268). -/
structure HostAddr where
  ip : BitVec 128
  uplink : Bool
  deriving DecidableEq, Repr

/-- An inflater at a block, and whether its SRAM had an uncorrectable error (Table 7.8). -/
structure Inflation where
  inflater : Fin 2
  sramError : Bool
  deriving DecidableEq, Repr

/-- A save area that is filled back, or one on chip whose context-RAM word had an uncorrectable error (R161). -/
structure AreaRead where
  ctx : CtxId
  ramError : Bool
  deriving DecidableEq, Repr

/-- What the self-checks find beside failing engines (R172, R185): engines whose state ECC corrected, an error of the
arbiter or the ledger's control, a fault of the crossbar or the hardware gate-off path. -/
structure SelfChecks where
  corrected : List EngineId := []
  control : Bool := false
  path : Bool := false
  deriving DecidableEq, Repr

/-- What the self-tests of SELFTEST found (R185, R191, R283, R305, R371). -/
structure SelfTest where
  gateOffOk : Bool
  cryptoOk : Bool
  entropyOk : Bool
  /-- read back of each head record's copies A and B: check word, Tag, Kind, Index and Length are correct (R190) -/
  headA : BitVec 12
  headB : BitVec 12
  moduleA : Bool
  moduleB : Bool
  moduleFactory : Bool
  /-- read back of copies A and B of each profile: check word and header are correct (R190, R282) -/
  profileA : BitVec 4
  profileB : BitVec 4
  /-- milliseconds since the input rose (R357 ReadyTime) -/
  readyMs : Nat
  /-- directory entries that fail their MRAM ECC: bit i copy A of index i, bit 13 + i copy B (R190) -/
  dirBad : BitVec 26 := 0
  /-- the same of the profiles: bit n copy A of PFn, bit 4 + n copy B (R282) -/
  profDirBad : BitVec 8 := 0
  deriving DecidableEq, Repr

/-- The commands: one constructor per row of spec/opcode_table.json. -/
inductive Instr where
  -- build control (R25, R49, R301, R302, R391)
  | arm (q : Sess) | disarm (q : Sess) | start (q : Sess) | pause (q : Sess) | resume (q : Sess)
  | abort (q : Sess) | clearSafe (q : Sess) | enterService (q : Sess) | leaveService (q : Sess)
  | restart (q : Sess)
  | scheduledStartWrite (q : Sess) (data : Bytes)
  | layerStartAtWrite (q : Sess) (data : Bytes) | layerStart
  -- vector words, executed by engine e from its block buffer (R34–R45)
  | jump (e : EngineId) | mark (e : EngineId) | setMarkSpeed (e : EngineId)
  | setJumpLimits (e : EngineId) | setPower (e : EngineId) | setFocus (e : EngineId)
  | setLaserDelays (e : EngineId) | setCorner (e : EngineId) | setpoint (e : EngineId)
  | dwell (e : EngineId) | tokenSignal (e : EngineId) | tokenWait (e : EngineId)
  | tokenWaitSatisfied (e : EngineId) | seam (e : EngineId) | seamWaitEnd (e : EngineId)
  | groupBegin (e : EngineId) | groupEnd (e : EngineId) | preempt (e : EngineId)
  | label (e : EngineId) | layerEnd (e : EngineId) | endWord (e : EngineId)
  -- the update grid, ports and links (R56–R88)
  | powerSlot (p : LaserId)
  | upstreamFrame (p : LaserId) (frame : Option (BitVec 160))
  | hfaultUnavailable (p : LaserId) | linkLost (p : LaserId) | linkStartup (p : LaserId)
  | linkAlign (p : LaserId) (validChars : Nat) (phases : BitVec 64) (roundTripNs : Nat)
  | linkIdentify (p : LaserId) | linkUp (p : LaserId) | startupTimeout (p : LaserId)
  | linkRetry (p : LaserId)
  | linkEnableWrite (q : Sess) (p : LaserId) (v : Byte)
  | auxRead (q : Sess) (p : LaserId) (addr : BitVec 14)
  | auxWrite (q : Sess) (p : LaserId) (addr : BitVec 14) (data : BitVec 16)
  | auxResponse (p : LaserId) (data : BitVec 16)
  | auxTimeout (p : LaserId)
  | laserUnavailable (p : LaserId) (ready : Bool) (alarmL : Bool)
  | laserAvailable (p : LaserId) (readyTicks : Nat)
  | emitReadback (p : LaserId) (on : Bool)
  | safetyOkFall (lowSamples : Nat) | safetyOkRise (highTicks : Nat)
  | readyTimeout (e : EngineId) | layerEndForced (e : EngineId)
  | bufferEmptyStall (e : EngineId) | stallResume (e : EngineId)
  | blockFetch (e : EngineId) | blockInflate (i : Inflation)
  -- sharing the bed (R92–R113)
  | claimDecision (e : EngineId) | keepoutRelease (e : EngineId) | waitBound (e : EngineId)
  | stealAttempt (e : EngineId) | tokenTimeout (e : EngineId)
  -- contexts and sparing (R157–R186)
  | preemption (e : EngineId) | contextFill (a : AreaRead) | contextSpill
  | takeover (failures : List (EngineId × Fin 6)) (found : SelfChecks) (bad : List Nat)
  | trimRequest (q : Sess) (v : Byte) | trimWithdraw (q : Sess) (v : Byte)
  | trimEnd (pass : Bool) (codes : List Byte)
  -- Heat Ledger and melt pool (R115–R135)
  | deposit (e : EngineId)
  | ledgerTileFill (ti tj : Nat) (uncorrectable : Bool)
  | ledgerSweep (ti tj : Nat)
  | lookaheadResult (e : EngineId)
  | samplePair (p : LaserId) | anomalyStart (p : LaserId)
  -- Clover engine (R137–R151)
  | laneRun (n : EngineId) | feedbackReturned (n : LaneId)
  | axisLaneRun (n : LaneId) (input : BitVec 16)
  | chainCommit (q : Sess) (n : LaneId) (v : Byte)
  | injStart (q : Sess) (n : LaneId) (v : Byte) | injectionEnd (n : LaneId)
  | capStart (q : Sess) (v : Byte)
  | profStart (q : Sess) (n : LaneId) (v : Byte)
  -- calibration (R189–R209)
  | initHead (q : Sess) (p : Byte) | headMap (q : Sess) (p : Byte) | focusMap (q : Sess) (p : Byte)
  | gateAlign (q : Sess) (p : Byte) | driftPoint (q : Sess) (p : Byte)
  | crossCheck (q : Sess) (p : Byte) | powerLin (q : Sess) (p : Byte)
  | powerReading (q : Sess) (milliwatt : BitVec 32)
  | pdGain (q : Sess) (p : Byte) | linkEye (q : Sess) (p : Byte)
  | sensorOffset (q : Sess) (p : Byte) | oscModel (q : Sess) (p : Byte)
  | calStop (q : Sess) | calDone (obs : CalObs)
  | calAcceptCommit (q : Sess) | calAcceptDiscard (q : Sess)
  | recordImport (q : Sess) (r : Fin 13) (data : Bytes)
  | recordCommitDone (programmed : List Bool)
  -- cameras, compositor, illumination (R211–R234)
  | camFrameStart (p : CamId) (vc : Fin 4)
  | camLongPacket (p : CamId) (vc : Fin 4) (dataType : Byte) (headerOk crcOk : Bool) (pixels : Bytes)
  | camFrameEnd (p : CamId) (vc : Fin 4) | frameTimeout (p : CamId)
  | portCommit (q : Sess) (p : CamId) (v : Byte)
  | trigNow (q : Sess) (p : CamId) (v : Byte) | trigPeriod (p : CamId) | exposureEnd (p : CamId)
  | planeCommit (q : Sess) (k : PlaneId) (v : Byte) | planeFlip (q : Sess) (k : PlaneId) (v : Byte)
  | scaleDone (k : PlaneId) (lostGroups : List Nat)
  | planeTransparent (k : PlaneId)
  | outCommit (q : Sess) (v : Byte) | reflatten (q : Sess) (v : Byte)
  | writebackFault (unresolvable : Bool)
  | dpHpd (high : Bool) (trains : List (Nat × Nat)) (edid : Bytes)
  | dpRetrain (trains : List (Nat × Nat))
  | scanBoundary (columnFails : List (PetalId × Fin 12))
  | ntcReading (t : PetalId) (reading : Int)
  | dutyWrite (q : Sess) (t : PetalId) (colour : Fin 4) (v : BitVec 16)
  -- axes (R236–R259)
  | enable (q : Sess) (a : AxisId) | enableDone (a : AxisId) | disable (q : Sess) (a : AxisId)
  | moveAbs (q : Sess) (a : AxisId) | moveRel (q : Sess) (a : AxisId) | jog (q : Sess) (a : AxisId)
  | stop (q : Sess) (a : AxisId) | home (q : Sess) (a : AxisId)
  | coord (q : Sess) (a : AxisId) (mask : Byte)
  | clear (q : Sess) (a : AxisId) | follow (q : Sess) (a : AxisId)
  | setPosition (q : Sess) (a : AxisId)
  | accelLimitWrite (q : Sess) (a : AxisId) (v : BitVec 32)
  | velLimitWrite (q : Sess) (a : AxisId) (v : BitVec 32)
  | profilePeriod (a : AxisId) (vbusMv : Nat)
  | stopComplete (a : AxisId) | inPosition (a : AxisId)
  | stepInEdge (a : AxisId) (dirPositive : Bool)
  | encoderEdge (a : AxisId) (lineA lineB : Bool)
  | sincosSample (a : AxisId) (sinRaw cosRaw : Int)
  | indexPulse (a : AxisId) (lineA lineB : Bool)
  | standstillTimeout (a : AxisId)
  | switchChange (a : AxisId) (sw : Fin 3) (level : Bool)
  | stall (a : AxisId) (uA uB iA iB diA diB : Int)
  | axisFeedbackLost (a : AxisId) | homingTimeout (a : AxisId)
  -- dictionary, Choyr link, profiles (R261–R285)
  | readReq (q : Sess) (msg : Bytes) | writeReq (q : Sess) (msg : Bytes)
  | entryWrite (q : Sess) (index : BitVec 16) (sub : Byte) (data : Bytes)
  | subscribeReq (q : Sess) (msg : Bytes)
  | cyclic (q : Sess) (subId : Fin 8)
  | echoReq (q : Sess) (msg : Bytes)
  | announceReceived (msg : Bytes) | nodeUnheard (node : BitVec 14)
  | sessionOpened (peer : BitVec 14) (minor : Nat) (source : HostAddr) (auth : AuthWay)
  | sessionTimeout (q : Sess)
  | ringFrameForward (fromB : Bool) (toMe fromMe ptp : Bool) (frame : Bytes)
  | ringPort (portB : Bool) (up : Bool)
  | storeProfile (q : Sess) (v : Byte) | profileStored (programmed : List Bool)
  | switchProfile (q : Sess) (v : Byte) | loadDefaults (q : Sess) (v : Byte)
  -- time (R287–R302)
  | setTime (q : Sess) (data : Bytes)
  | ptpSync (p : Fin 3) (origin : Nat) (stamp : PtpStamp) (newMaster : Bool) (supported : Bool)
  | ptpDelayMessage (p : Fin 3) (message : PtpDelay) (correction : Int) (supported : Bool)
  | ptpAnnounce (p : Fin 3) (grandmaster : Nat) (stepsRemoved : Nat) (utcOffset : Int)
      (better : Bool) (states : List (Fin 3 × Nat)) (supported : Bool)
  | ptpForward (p : Fin 2) (source : Nat) (sequenceId : BitVec 16) (kind : PtpKind)
      (residence : Nat) (correction : Int)
  | announceReceiptTimeout (p : Fin 3) (states : List (Fin 3 × Nat))
  | latchEdge (i : Fin 2) (level : Bool)
  | latchDataRead (q : Sess) (i : Fin 2)
  | clockMonitor (lostNs : Nat) (reference locked : Bool)
  -- working memory, translation, DMA (R163–R168, R304–R316)
  | refresh (c : ChanId) | zqShort (c : ChanId)
  | neighbourRefresh (c : ChanId) (bank : Fin 16) (row : BitVec 16)
  | refreshWindowEnd (c : ChanId)
  | patrolScrub (c : ChanId) (errors : List (Fin 72 × Byte))
  | deviceMarked (c : ChanId) (d : Fin 18)
  | memoryRequest (c : ChanId) (m : Requester) (rt : Bool) (address : Nat) (write : Option Bytes)
      (errors : List (Fin 72 × Byte))
  | ageRaise (c : ChanId)
  | markedDeviceClear (q : Sess) (c : ChanId) (v : Byte)
  | translationFault (m : Master) (inst : Byte) (space : SpaceId) (va : BitVec 48) (write : Bool)
      (progress : BitVec 32)
  | faultResolved (space : SpaceId) (page : BitVec 32) (tables : List (Nat × BitVec 64))
  | tlbInvalidate (space : SpaceId) (page : BitVec 32)
  | dmaSubmit (q : Sess) (data : Bytes) | dmaChunk (space : SpaceId)
  -- compression (R318–R328)
  | compressSubmit (q : Sess) (data : Bytes)
  | compressCancel (q : Sess) (tag : BitVec 32)
  -- event recorder (R330–R339)
  | pageProgram (ok : Bool) | flushInterval (ok : Bool)
  | ringBlockErase (ok : Bool)
  | snapOpen (q : Sess) (v : Byte) | snapClose (q : Sess) (v : Byte) | snapHoldExpiry (q : Sess)
  -- supply, thermal, reset (R341–R357)
  | pfWarn (mvA mvB : Nat) (belowUs : Nat)
  | pfStop (mvA mvB : Nat) (bankMv : Nat) (loadMw : Nat) (belowUs : Nat)
  | inputLost (b : Bool) (mv : Nat) (belowUs : Nat)
  | inputRestored (b : Bool) (mv : Nat) (aboveUs : Nat)
  | holdupReturn (mv : Nat) (aboveUs : Nat) | holdupRailLow (bankMv : Nat)
  | converterStop (bankMv : Nat)
  | resumeArm (q : Sess) (v : Byte) | resumeDiscard (q : Sess) (v : Byte)
  | housekeepingRound (readings : List Int)
  | sensorExcluded (n : SensorId)
  | thermalShutdown (n : SensorId) (reading : Int)
  | resetL (lowNs : Nat)
  | powerOn (mvA mvB : Nat) (vbatMv : Nat)
  | resetRelease (bankMv : Nat) (resetLHigh : Bool) (profSel : BitVec 2)
  | bootAuthenticated (slots : List FwImage) (recoveryOk : Bool) (trained : BitVec 2)
      (margins : List Nat)
  | selftestDone (r : SelfTest)
  | vioLow (mv : Nat) | outputOverload (output : Fin 20)
  -- security (R360–R375)
  | handshakeFailed (ip : BitVec 128) (cause : Nat) (account : Option (Fin 32))
  | lockoutExpiry (ip : BitVec 128)
  | keyUpdate (q : Sess) (sending : Bool)
  | accountWrite (q : Sess) (n : Fin 32) (sub : Byte) (data : Bytes)
  | packageData (q : Sess) (offset : BitVec 32) (final : Bool) (data : Bytes)
  | packageDecrypted (placement : List Nat) (tables : List (Nat × BitVec 64)) (memoryOk : Bool)
  | firmwareImage (q : Sess) (image : FwImage) | firmwareActivate (q : Sess) (v : Byte)
  | selfTestRun (q : Sess) (v : Byte) (pass : Bool)
  | cryptoSelftestFailure (test : Nat)
  | tamper (lowInputs : BitVec 2) (lowUs : Nat)
  | tamperAck (q : Sess) (v : Byte) (inputsLow : BitVec 2)
  | certifiedModeWrite (q : Sess) (v : Byte)
  -- added rows
  | headTemperatureStale (p : LaserId)
  | brakeRelease (a : AxisId) | enaOff (a : AxisId)
  | vioRestored (mv : Nat) | pfWarnCleared (mvA mvB : Nat) | chatterCleared (a : AxisId) (sw : Fin 3)
  -- the rows without operands, of every family
  | scheduledStartReached | update | layerComplete | heldRemaindersLost
  | standinRoute | trimStart | handBack | captureDone | readingTimeout | calAborted
  | outputFrameBoundary | flattenDone | layerStageStart | announceSend | hostLoss | syncLoss
  | secondBoundary | tickAnchor | ppsEnd | oscTrim | faultTimeout | compressChunk
  | eventRecordTaken | mirrorWrite | resumeCopy | throttleStage2 | thermalRestart | watchdog
  | firmwareFailover | zeroisationDone | pllLock
  deriving DecidableEq, Repr

end Sys2Proof
end

