-- ==== Sys2Proof/Machine/Bits.lean ====
section
/-!
DEFINITION. Little-endian fields (R7), two's complement, roundings, and the check codes the spec names:
CRC-32C, the CRC of R72 and the CRC4 of Table 3.9.
-/
namespace Sys2Proof.Machine

/-- The number a little-endian octet string spells. -/
def leNat : Bytes → Nat
  | [] => 0
  | b :: t => b.toNat + 256 * leNat t

/-- The low n octets of a number, little-endian. -/
def leBytes : Nat → Nat → Bytes
  | 0, _ => []
  | n + 1, v => BitVec.ofNat 8 v :: leBytes n (v / 256)

/-- The low `bits` bits of a natural number read as two's complement. -/
def signed (bits v : Nat) : Int :=
  let m := v % 2 ^ bits
  if m < 2 ^ (bits - 1) then (m : Int) else (m : Int) - 2 ^ bits

/-- The low `bits` bits of an integer, as a natural number. -/
def unsigned (bits : Nat) (v : Int) : Nat := (v % 2 ^ bits).toNat

/-- Bits [hi:lo] of a number. -/
def field (v hi lo : Nat) : Nat := v / 2 ^ lo % 2 ^ (hi + 1 - lo)

/-- One bit of a number. -/
def bitOf (v i : Nat) : Bool := v / 2 ^ i % 2 == 1

/-- 1 for true. -/
def b2n (b : Bool) : Nat := if b then 1 else 0

/-- The number with bit i at weight 2^i. -/
def ofBits : List Bool → Nat
  | [] => 0
  | b :: t => b2n b + 2 * ofBits t

/-- n octets from offset o. -/
def slice (b : Bytes) (o n : Nat) : Bytes := (b.drop o).take n

/-- The little-endian field of n octets at offset o. -/
def leAt (b : Bytes) (o n : Nat) : Nat := leNat (slice b o n)

/-- Nearest integer to a / b for b > 0, a tie rounded up (towards +∞). -/
def roundDiv (a : Int) (b : Nat) : Int := (2 * a + b).fdiv (2 * b)

/-- Nearest integer to a / b for b > 0, a tie rounded to the even integer. -/
def roundEven (a : Int) (b : Nat) : Int :=
  let q := a.fdiv b
  let r := a - q * b
  if 2 * r < b then q else if 2 * r > b then q + 1 else if q % 2 == 0 then q else q + 1

/-- Quotient rounded up. -/
def ceilDiv (a b : Nat) : Nat := (a + b - 1) / b

/-- v held within [lo, hi]. -/
def clampInt (v lo hi : Int) : Int := if v < lo then lo else if v > hi then hi else v

/-- Integer square root, rounded down, by bits from 2^fuel down. -/
def isqrtFrom : Nat → Nat → Nat → Nat
  | 0, _, r => r
  | f + 1, n, r =>
    let c := r + 2 ^ f
    isqrtFrom f n (if c * c ≤ n then c else r)

/-- Integer square root, rounded down. -/
def isqrt (n : Nat) : Nat := isqrtFrom (n.log2 / 2 + 1) n 0

/-- One step of a reflected 32-bit CRC. -/
def crcStep32 (poly : Nat) (c : Nat) : Nat :=
  if c % 2 == 1 then (c / 2) ^^^ poly else c / 2

/-- CRC-32C of an octet string (reflected, polynomial 0x1EDC6F41 reversed, initial and final ones). -/
def crc32c (b : Bytes) : Nat :=
  let body := b.foldl (fun c (x : Byte) =>
    let d := c ^^^ x.toNat
    crcStep32 0x82F63B78 (crcStep32 0x82F63B78 (crcStep32 0x82F63B78 (crcStep32 0x82F63B78
      (crcStep32 0x82F63B78 (crcStep32 0x82F63B78 (crcStep32 0x82F63B78 (crcStep32 0x82F63B78 d))))))))
    0xFFFFFFFF
  body ^^^ 0xFFFFFFFF

/-- One step of the CRC of R72. -/
def crcStep16 (c : Nat) : Nat :=
  if c ≥ 0x8000 then (c * 2 % 0x10000) ^^^ 0x1021 else c * 2

/-- The CRC of R72: polynomial 0x1021, initial 0xFFFF, no reflection, no final XOR. -/
def crc16 (b : Bytes) : Nat :=
  b.foldl (fun c (x : Byte) =>
    let d := c ^^^ (x.toNat * 256)
    crcStep16 (crcStep16 (crcStep16 (crcStep16 (crcStep16 (crcStep16 (crcStep16 (crcStep16 d))))))))
    0xFFFF

/-- The CRC4 of Table 3.9 over a list of bits, first bit first: polynomial x⁴ + x + 1, initial 0xF. -/
def crc4 (bits : List Bool) : Nat :=
  bits.foldl (fun c b =>
    let top := bitOf c 3 != b
    let d := c * 2 % 16
    if top then d ^^^ 3 else d) 0xF

/-- The low n bits of v, most significant first. -/
def msbBits : Nat → Nat → List Bool
  | 0, _ => []
  | n + 1, v => bitOf v n :: msbBits n v

end Sys2Proof.Machine
end

