-- ==== Sys2Proof/Machine/StEngine.lean ====
section
/-!
DEFINITION. The state of a channel engine (chapters 2, 3, 4, 7 and 8): decoded blocks, parameter state,
motion plan, gate edges, claims, waits, checkpoints; and the scan context with its save area.
-/
namespace Sys2Proof.Machine

/-- Engine states (Table 3.1). -/
inductive EngState where
  | idle | armed | running | yielding | stalled | parked | spare | standin | trim | fault
  deriving DecidableEq, Repr

/-- A vector word (Tables 2.3 and 2.4). -/
inductive VWord where
  | jump (settle : Bool) (x y : Int)
  | mark (noCorner seam anomMask : Bool) (x y : Int)
  | setMarkSpeed (speed : Nat)
  | setJumpLimits (speed accel jerk settle : Nat)
  | setPower (power : Nat)
  | setFocus (focus : Int)
  | setLaserDelays (onDelay offDelay : Int) (markDelay : Nat)
  | setCorner (angle delay scale : Nat)
  | setpoint (mode setPoint bandLow bandHigh : Nat)
  | dwell (gate : Bool) (duration : Nat)
  | token (wait : Bool) (token count : Nat)
  | seam (incoming : Bool) (token overlap seamId : Nat)
  | group (begin : Bool) (groupId : Nat)
  | preempt
  | label (partId featureTag : Nat)
  | layerEnd (layer : Nat)
  | endWord
  deriving DecidableEq, Repr

/-- The scan block header (Table 2.2). -/
structure BlockHeader where
  tag : Nat := 0
  version : Nat := 0
  flags : Nat := 0
  wordCount : Nat := 0
  homeLaser : Nat := 0
  reserved07 : Nat := 0
  compressedLength : Nat := 0
  payloadCrc : Nat := 0
  execTime : Nat := 0
  eligibility : Nat := 0
  reserved16 : Nat := 0
  layer : Nat := 0
  headerCrc : Nat := 0
  deriving DecidableEq, Repr

/-- A decoded block in a block-buffer slot, or the empty placeholder of R52. -/
structure Block where
  address : Nat := 0
  header : BlockHeader := {}
  words : List VWord := []
  /-- context whose list holds the block (its owner), and its address space -/
  ctx : Nat := 0
  space : Nat := 0
  sequence : Nat := 0
  lastOfList : Bool := false
  placeholder : Bool := false
  stolen : Bool := false
  /-- entry of its owner's list -/
  listIndex : Nat := 0
  /-- a block not yet decoded, behind which others may stand (R20, R165) -/
  gap : Bool := false
  /-- its execution time has been compared (R48) -/
  measured : Bool := false
  deriving DecidableEq, Repr

/-- The parameter state of R34. -/
structure Params where
  markSpeed : Nat := 0
  jumpSpeed : Nat := 0
  jumpAccel : Nat := 0
  jumpJerk : Nat := 0
  settle : Nat := 0
  power : Nat := 0
  focus : Int := 0
  onDelay : Int := 0
  offDelay : Int := 0
  markDelay : Nat := 0
  cornerAngle : Nat := 0
  cornerDelay : Nat := 0
  cornerScale : Nat := 0
  mode : Nat := 0
  setPoint : Nat := 0
  bandLow : Nat := 0
  bandHigh : Nat := 65535
  partId : Nat := 0
  featureTag : Nat := 0
  deriving DecidableEq, Repr

/-- What the path does during one piece of the motion plan (phases of Table 8.2). -/
inductive Phase where
  | jump | settle | mark | corner | markDelay | dwellOn | dwellOff | wait | stopped
  deriving DecidableEq, Repr

/-- A seam half announced by a SEAM word (R43). -/
structure SeamHalf where
  incoming : Bool := false
  token : Nat := 0
  overlap : Nat := 0
  seamId : Nat := 0
  /-- the seam wait of an incoming half has ended -/
  waited : Bool := false
  /-- its MARK has been planned in the segment under way -/
  marked : Bool := false
  deriving DecidableEq, Repr

/-- A reorder group in progress (R42, R103). -/
structure Group where
  groupId : Nat := 0
  beginOffset : Nat := 0
  /-- word offset of each member's JUMP, and the offset of the end word -/
  members : List Nat := []
  endOffset : Nat := 0
  /-- members executed, and members refused in this pass -/
  done : List Nat := []
  refused : List Nat := []
  current : Nat := 0
  outOfOrder : Bool := false
  partId : Nat := 0
  featureTag : Nat := 0
  deriving DecidableEq, Repr

/-- A break at a PREEMPT inside a mark segment (R41): the point at which the MARK before it ended, and that MARK's
ANOM_MASK and SEAM. -/
structure BreakPoint where
  x : Int := 0
  y : Int := 0
  mask : Bool := false
  seam : Bool := false
  deriving DecidableEq, Repr

/-- One piece of the planned path. Times are in 1/327,680 update from update 0, positions in 1/65,536
bed unit (R39, R58). -/
structure Motion where
  phase : Phase := .stopped
  t0 : Nat := 0
  dur : Nat := 0
  x0 : Int := 0
  y0 : Int := 0
  x1 : Int := 0
  y1 : Int := 0
  /-- square of the distance, speed, acceleration and jerk limits of a jump (R62) -/
  jumpDist : Nat := 0
  jumpV : Nat := 0
  jumpA : Nat := 0
  jumpJ : Nat := 0
  power : Nat := 0
  scale : Nat := 65535
  focus : Int := 0
  mode : Nat := 0
  setPoint : Nat := 0
  bandLow : Nat := 0
  bandHigh : Nat := 65535
  anomMask : Bool := false
  /-- seam ramp: overlap in bed units, 0 none; incoming half; MARK start for the ramp's distances -/
  seamOverlap : Nat := 0
  seamIncoming : Bool := false
  /-- distance already covered along the original MARK, bed units × 65,536 (R160) -/
  seamOffset : Nat := 0
  partId : Nat := 0
  featureTag : Nat := 0
  wordOffset : Nat := 0
  /-- number of the block on the engine that the piece belongs to -/
  blockNo : Nat := 0
  inUnit : Bool := false
  /-- within a mark segment -/
  seg : Bool := false
  /-- a resume jump or its settle: 1 outside an exposure unit, 2 inside one, 0 neither -/
  back : Nat := 0
  /-- the seam half announced and the group in progress as the piece was planned (R42, R43) -/
  half : Option SeamHalf := none
  group : Option Group := none
  /-- the break to which the piece goes back -/
  brk : Option BreakPoint := none
  deriving DecidableEq, Repr

/-- A scheduled gate edge, in eighth-ticks (R64); a rise with the programmed power of its interval (R66). -/
structure Edge where
  at8 : Int := 0
  rise : Bool := false
  power : Nat := 0
  deriving DecidableEq, Repr

/-- What an engine waits for. -/
inductive Wait where
  | none
  /-- for a Q_CLAIM credit (R19) -/
  | credit
  | claim (since : Nat)
  | token (token count since : Nat)
  | seam (token seamId since : Nat)
  deriving DecidableEq, Repr

/-- A claim rectangle in bed units. -/
structure Rect where
  x0 : Int := 0
  y0 : Int := 0
  x1 : Int := 0
  y1 : Int := 0
  deriving DecidableEq, Repr

/-- The layout bytes of a save area that the machine interprets (Table 7.2). -/
structure SaveArea where
  par : Params := {}
  group : Option Group := none
  seam : Option SeamHalf := none
  dwellRemaining : Nat := 0
  posX : Int := 0
  posY : Int := 0
  deriving DecidableEq, Repr

/-- A checkpoint (Table 8.2 over the layout of Table 7.2). -/
structure Checkpoint where
  update : Nat := 0
  ctx : Nat := 0
  wordOffset : Nat := 0
  blockSlot : Nat := 0
  phase : Phase := .stopped
  phaseRemaining : Nat := 0
  markFraction : Nat := 0
  jumpStep : Nat := 0
  execUpdates : Nat := 0
  inUnit : Bool := false
  /-- number of the block on its engine -/
  blockNo : Nat := 0
  /-- start vertex of the MARK under way -/
  markX0 : Int := 0
  markY0 : Int := 0
  breakTo : Option BreakPoint := none
  area : SaveArea := {}
  valid : Bool := true
  deriving DecidableEq, Repr

/-- An energy deposit posted through Q_LEDGER (R123): completion in eighth-ticks, cell, and the sum over the two
slots of POWER × gate-on eighth-ticks × FullScalePower in W. -/
structure Deposit where
  at8 : Int := 0
  cellI : Int := 0
  cellJ : Int := 0
  energy : Nat := 0
  deriving DecidableEq, Repr

/-- A look-ahead request (R129). -/
structure LookReq where
  update : Nat := 0
  posted : Nat := 0
  cellI : Int := 0
  cellJ : Int := 0
  waited : Bool := false
  deriving DecidableEq, Repr

/-- A stolen block or a block waiting to be fetched: list entry of a context. -/
structure FetchItem where
  ctx : Nat := 0
  listIndex : Nat := 0
  address : Nat := 0
  sequence : Nat := 0
  lastOfList : Bool := false
  stolen : Bool := false
  space : Nat := 0
  attempt : Nat := 0
  /-- its fetch has faulted; it keeps its Q_FETCH credit and is fetched again once the fault is resolved (R165) -/
  held : Bool := false
  /-- counted in QueueWaitCount (Table 1.7) -/
  waited : Bool := false
  deriving DecidableEq, Repr

/-- A downstream frame in Q_POS (R56, R57): its update, bed position in 1/65,536 unit, the values of R70,
and the flags of Table 3.4. -/
structure Frame where
  k : Nat := 0
  bedX : Int := 0
  bedY : Int := 0
  x : Int := 0
  y : Int := 0
  z : Int := 0
  seg : Bool := false
  jump : Bool := false
  hold : Bool := false
  deriving DecidableEq, Repr

/-- One channel engine. -/
structure Engine where
  st : EngState := .idle
  cause : Nat := 0
  routed : Option LaserId := none
  ctx : Option CtxId := none
  /-- decoded blocks in execution order, at most 4; the first is being executed -/
  buf : List Block := []
  wordOff : Nat := 0
  par : Params := {}
  /-- end of the planned path -/
  planEnd : Nat := 0
  plan : List Motion := []
  posX : Int := 0
  posY : Int := 0
  /-- last set-point sent -/
  setX : Int := 0
  setY : Int := 0
  genUpdate : Nat := 0
  /-- first update of the present run of generated set-points; a set-point has been generated since reset -/
  genFrom : Nat := 0
  everSet : Bool := false
  frames : List Frame := []
  /-- gate level before the first listed edge, last rise before it, last update deposited (R123) -/
  lastRise8 : Int := -1000000
  lastDeposit : Int := 0
  edges : List Edge := []
  lastFall8 : Int := -1000000
  gate : Bool := false
  inSegment : Bool := false
  segStart : Nat := 0
  segDirX : Int := 0
  segDirY : Int := 0
  segHasMark : Bool := false
  /-- a gate-on word has been executed since the last pre-emption point (R101, R158) -/
  gateSincePoint : Bool := false
  atPoint : Bool := true
  ppOffset : Nat := 0
  firstJumpDone : Bool := false
  execStart : Nat := 0
  waitUpdates : Nat := 0
  seam : Option SeamHalf := none
  /-- outgoing halves to be signalled, each at the tick of its segment's last gate fall (R112) -/
  seamDue : List (Nat × SeamHalf) := []
  group : Option Group := none
  wait : Wait := .none
  /-- the block completed last, the plan times at which the last words of completed blocks end, until when each keeps its
  slot (R20), and how many the engine has completed -/
  lastBlock : Option Block := none
  leaving : List Nat := []
  blockNo : Nat := 0
  /-- updates for which the block under execution ran before the engine left it (R48) -/
  ranBefore : Nat := 0
  /-- identity of the claim of the unit ahead, and whether it has been granted -/
  claimId : Option Nat := none
  claimGranted : Bool := false
  parkAtPoint : Bool := false
  readyTimer : Option Nat := none
  forcedTimer : Option Nat := none
  stealAt : Option Nat := none
  stealEmpty : Bool := false
  /-- stop point of R162 -/
  stopX : Int := 0
  stopY : Int := 0
  stopTick : Nat := 0
  stopFraction : Nat := 0
  stopInUnit : Bool := false
  /-- remainder of an interrupted gate-on DWELL, eighth-ticks (R160) -/
  stopDwell : Nat := 0
  stopMarkX0 : Int := 0
  stopMarkY0 : Int := 0
  /-- the engine goes on after a break, behind this point (R41, R160) -/
  breakTo : Option BreakPoint := none
  /-- the point at which a pre-emption was deferred: block and word (R159) -/
  deferredAt : Option (Nat × Nat) := none
  /-- position at which the resumed word continues (R160) -/
  backTo : Option (Int × Int) := none
  stallLaser : Bool := false
  layerDone : Bool := true
  stolenQ : List FetchItem := []
  /-- the entry whose wait for a Q_FETCH credit has been counted: context and list index -/
  fetchWaited : Option (Nat × Nat) := none
  checkpoints : List Checkpoint := []
  ledgerQ : List Deposit := []
  lookReqs : List LookReq := []
  /-- frames missing in Q_POS in a row, and a mismatch of the duplicate path (R171) -/
  missFrames : Nat := 0
  dupBad : Bool := false
  slotPower : List (Int × Nat) := []
  belowObligation : Bool := false
  reserveUsed : Bool := false
  dupDeviation : Nat := 0
  selfCheck : Nat := 0
  faultTick : Nat := 0
  deriving DecidableEq, Repr

/-- Context states (Table 7.3). -/
inductive CtxState where
  | free | loaded | ready | running | preempted | blocked | done | aborted
  deriving DecidableEq, Repr

/-- A context descriptor (Table 7.1) with its save area (R154). -/
structure Context where
  st : CtxState := .free
  /-- state to which a BLOCKED context returns -/
  before : CtxState := .ready
  priority : Nat := 0
  space : Nat := 0
  homeEngine : Nat := 0
  engine : Nat := 255
  injected : Bool := false
  spilled : Bool := false
  inUnit : Bool := false
  brk : Bool := false
  powerResume : Bool := false
  saveSlot : Nat := 255
  blockedCause : Nat := 0
  listBase : Nat := 0
  listIndex : Nat := 0
  layer : Nat := 0
  blockAddress : Nat := 0
  wordOffset : Nat := 0
  markFraction : Nat := 0
  stopX : Int := 0
  stopY : Int := 0
  injectX : Int := 0
  injectY : Int := 0
  spillAddress : Nat := 0
  partId : Nat := 0
  featureTag : Nat := 0
  stopTick : Nat := 0
  preemptCount : Nat := 0
  blocksDone : Nat := 0
  /-- list entries taken by other engines (R106) -/
  taken : List Nat := []
  /-- updates for which the current block had run at the save, and whether its first JUMP had (R48) -/
  ran : Nat := 0
  jumped : Bool := false
  /-- start vertex of the MARK under way at the stop -/
  markX0 : Int := 0
  markY0 : Int := 0
  breakTo : Option BreakPoint := none
  readyAt : Nat := 0
  injector : Nat := 255
  /-- the save area has come back from memory: what Table 7.2 does not hold is read again from the block -/
  filled : Bool := false
  /-- a spill of the save area was abandoned: it stays on chip (Table 7.8) -/
  noSpill : Bool := false
  area : Option SaveArea := none
  /-- decoded blocks kept for its return (R158) -/
  kept : List Block := []
  deriving DecidableEq, Repr

/-- A claim in the arbiter (R92, R94). -/
structure Claim where
  id : Nat := 0
  engine : Nat := 0
  rect : Rect := {}
  priority : Nat := 0
  rank : Nat := 0
  seamId : Option Nat := none
  posted : Nat := 0
  /-- first tick in which a decision on the claim is due (R99) -/
  dueAt : Option Nat := none
  /-- decided once and waiting, and the claims that it was found to wait for (R99) -/
  waiting : Bool := false
  blockedBy : List Nat := []
  granted : Bool := false
  /-- tick at or after which the spacing part is released (R94) -/
  releaseAt : Option Nat := none
  /-- held for a re-queued remainder (R101) -/
  held : Bool := false
  deriving DecidableEq, Repr

/-- A re-queued remainder (R101, R102, R109). -/
structure Remainder where
  engine : Nat := 0
  ctx : Nat := 0
  block : Block := {}
  wordOffset : Nat := 0
  area : SaveArea := {}
  /-- claim held for it (R101) -/
  claimId : Option Nat := none
  /-- token and count, or token and SeamID, awaited (R109) -/
  token : Option (Nat × Nat) := none
  seamWait : Option (Nat × Nat) := none
  /-- updates for which the block had run, and whether its first JUMP had (R48) -/
  ran : Nat := 0
  jumped : Bool := false
  inUnit : Bool := false
  stopX : Int := 0
  stopY : Int := 0
  markX0 : Int := 0
  markY0 : Int := 0
  breakTo : Option BreakPoint := none
  /-- taken from an engine in FAULT (R186) -/
  anyEngine : Bool := false
  deriving DecidableEq, Repr

/-- A sync token (R108): count and seam mailbox (SeamID, outgoing engine, Overlap, tick), the tick of the count's last
change and the count before that tick. -/
structure Token where
  count : Nat := 0
  mailbox : List (Nat × Nat × Nat × Nat) := []
  changed : Nat := 0
  before : Nat := 0
  deriving DecidableEq, Repr

end Sys2Proof.Machine
end

