-- ==== Sys2Proof/Machine/Operands.lean ====
section
/-!
DEFINITION. The operand forms of scan programs: the 17 vector words of Tables 2.3 and 2.4, their encoder,
block headers (Table 2.2), block list entries (Table 2.1), translation table entries (Table 7.6).
-/
namespace Sys2Proof.Machine

/-- The value of a field is refused: check code of Table 2.6. -/
abbrev Checked (α : Type) := Except Nat α

/-- v when the reserved bits are 0 (0x13) and the fields are valid (0x14). -/
def wordIf (reservedZero valid : Bool) (w : VWord) : Checked VWord :=
  if !reservedZero then .error 0x13 else if !valid then .error 0x14 else .ok w

/-- The vector word that 64 bits spell, or the check code it fails (R32, Tables 2.3 and 2.4, checks 0x12
to 0x14). -/
def decodeWord (w : Nat) : Checked VWord :=
  match field w 63 58 with
  | 0x01 => wordIf (field w 56 52 == 0) true
      (.jump (bitOf w 57) (signed 26 (field w 51 26)) (signed 26 (field w 25 0)))
  | 0x02 => wordIf (field w 54 52 == 0) true
      (.mark (bitOf w 57) (bitOf w 56) (bitOf w 55) (signed 26 (field w 51 26)) (signed 26 (field w 25 0)))
  | 0x08 => wordIf (field w 57 32 == 0) (10000 ≤ field w 31 0 && field w 31 0 ≤ 20000000)
      (.setMarkSpeed (field w 31 0))
  | 0x09 => wordIf true (10 ≤ field w 57 42 && field w 57 42 ≤ 5000 && 100 ≤ field w 41 26
        && 1 ≤ field w 25 10)
      (.setJumpLimits (field w 57 42) (field w 41 26) (field w 25 10) (field w 9 0))
  | 0x0A => wordIf (field w 57 16 == 0) true (.setPower (field w 15 0))
  | 0x0B => wordIf (field w 57 20 == 0) true (.setFocus (signed 20 (field w 19 0)))
  | 0x0C =>
    let on := signed 16 (field w 47 32)
    let off := signed 16 (field w 31 16)
    wordIf (field w 57 48 == 0)
      (decide (-6400 ≤ on) && decide (on ≤ 6400) && decide (-6400 ≤ off) && decide (off ≤ 6400)
        && decide (off ≤ (field w 15 0 : Int) * 320))
      (.setLaserDelays on off (field w 15 0))
  | 0x0D => wordIf (field w 57 48 == 0 && field w 31 16 == 0) (field w 47 40 ≤ 180)
      (.setCorner (field w 47 40) (field w 39 32) (field w 15 0))
  | 0x0E => wordIf (field w 55 48 == 0) (field w 31 16 ≤ field w 15 0)
      (.setpoint (field w 57 56) (field w 47 32) (field w 31 16) (field w 15 0))
  | 0x10 => wordIf (field w 56 32 == 0) (1 ≤ field w 31 0 && field w 31 0 ≤ 320000000)
      (.dwell (bitOf w 57) (field w 31 0))
  | 0x14 => wordIf (field w 55 38 == 0 && field w 31 16 == 0)
      ((field w 57 56 == 0 && field w 15 0 == 0) || (field w 57 56 == 1 && 1 ≤ field w 15 0))
      (.token (field w 57 56 == 1) (field w 37 32) (field w 15 0))
  | 0x15 => wordIf (field w 56 54 == 0 && field w 31 16 == 0)
      (field w 47 32 == 0 || (10 ≤ field w 47 32 && field w 47 32 ≤ 2000))
      (.seam (bitOf w 57) (field w 53 48) (field w 47 32) (field w 15 0))
  | 0x18 => wordIf (field w 56 16 == 0) true (.group (bitOf w 57) (field w 15 0))
  | 0x19 => wordIf (field w 57 0 == 0) true .preempt
  | 0x1C => wordIf (field w 57 48 == 0) true (.label (field w 47 32) (field w 31 0))
  | 0x3E => wordIf (field w 57 32 == 0) true (.layerEnd (field w 31 0))
  | 0x3F => wordIf (field w 57 0 == 0) true .endWord
  | _ => .error 0x12

/-- The 64 bits of a vector word (Table 2.4). -/
def encodeWord : VWord → Nat
  | .jump settle x y => 0x01 * 2 ^ 58 + b2n settle * 2 ^ 57 + unsigned 26 x * 2 ^ 26 + unsigned 26 y
  | .mark nc sm am x y =>
    0x02 * 2 ^ 58 + b2n nc * 2 ^ 57 + b2n sm * 2 ^ 56 + b2n am * 2 ^ 55 + unsigned 26 x * 2 ^ 26
      + unsigned 26 y
  | .setMarkSpeed v => 0x08 * 2 ^ 58 + v
  | .setJumpLimits v a j st => 0x09 * 2 ^ 58 + v * 2 ^ 42 + a * 2 ^ 26 + j * 2 ^ 10 + st
  | .setPower p => 0x0A * 2 ^ 58 + p
  | .setFocus f => 0x0B * 2 ^ 58 + unsigned 20 f
  | .setLaserDelays on off md => 0x0C * 2 ^ 58 + unsigned 16 on * 2 ^ 32 + unsigned 16 off * 2 ^ 16 + md
  | .setCorner a d sc => 0x0D * 2 ^ 58 + a * 2 ^ 40 + d * 2 ^ 32 + sc
  | .setpoint m sp lo hi => 0x0E * 2 ^ 58 + m * 2 ^ 56 + sp * 2 ^ 32 + lo * 2 ^ 16 + hi
  | .dwell g d => 0x10 * 2 ^ 58 + b2n g * 2 ^ 57 + d
  | .token w t c => 0x14 * 2 ^ 58 + b2n w * 2 ^ 56 + t * 2 ^ 32 + c
  | .seam inc t ov id => 0x15 * 2 ^ 58 + b2n inc * 2 ^ 57 + t * 2 ^ 48 + ov * 2 ^ 32 + id
  | .group bg id => 0x18 * 2 ^ 58 + b2n bg * 2 ^ 57 + id
  | .preempt => 0x19 * 2 ^ 58
  | .label p f => 0x1C * 2 ^ 58 + p * 2 ^ 32 + f
  | .layerEnd n => 0x3E * 2 ^ 58 + n
  | .endWord => 0x3F * 2 ^ 58

/-- A vector word with every field in its valid range (Table 2.4). -/
def wordValid : VWord → Bool
  | .jump _ x y | .mark _ _ _ x y =>
    decide (-(2 ^ 25) ≤ x) && decide (x < 2 ^ 25) && decide (-(2 ^ 25) ≤ y) && decide (y < 2 ^ 25)
  | .setMarkSpeed v => 10000 ≤ v && v ≤ 20000000
  | .setJumpLimits v a j st =>
    10 ≤ v && v ≤ 5000 && 100 ≤ a && a ≤ 65535 && 1 ≤ j && j ≤ 65535 && st ≤ 1023
  | .setPower p => p ≤ 65535
  | .setFocus f => decide (-(2 ^ 19) ≤ f) && decide (f < 2 ^ 19)
  | .setLaserDelays on off md =>
    decide (-6400 ≤ on) && decide (on ≤ 6400) && decide (-6400 ≤ off) && decide (off ≤ 6400)
      && md ≤ 65535 && decide (off ≤ (md : Int) * 320)
  | .setCorner a d sc => a ≤ 180 && d ≤ 255 && sc ≤ 65535
  | .setpoint m sp lo hi => m ≤ 3 && sp ≤ 65535 && lo ≤ hi && hi ≤ 65535
  | .dwell _ d => 1 ≤ d && d ≤ 320000000
  | .token w t c => t ≤ 63 && (if w then 1 ≤ c && c ≤ 65535 else c == 0)
  | .seam _ t ov id => t ≤ 63 && (ov == 0 || (10 ≤ ov && ov ≤ 2000)) && id ≤ 65535
  | .group _ id => id ≤ 65535
  | .label p f => p ≤ 65535 && f < 2 ^ 32
  | .layerEnd n => n < 2 ^ 32
  | .preempt | .endWord => true

/-- Words of a payload: 8 octets each, little-endian (R32). -/
def payloadWords : Nat → Bytes → List Nat
  | 0, _ => []
  | n + 1, b => leAt b 0 8 :: payloadWords n (b.drop 8)

/-- The fields of a scan block header (Table 2.2). -/
def parseHeader (b : Bytes) : BlockHeader :=
  { tag := leAt b 0x00 2, version := leAt b 0x02 1, flags := leAt b 0x03 1, wordCount := leAt b 0x04 2,
    homeLaser := leAt b 0x06 1, reserved07 := leAt b 0x07 1, compressedLength := leAt b 0x08 4,
    payloadCrc := leAt b 0x0C 4, execTime := leAt b 0x10 4, eligibility := leAt b 0x14 2,
    reserved16 := leAt b 0x16 2, layer := leAt b 0x18 4, headerCrc := leAt b 0x1C 4 }

/-- Header flags (Table 2.2). -/
def stealable (h : BlockHeader) : Bool := bitOf h.flags 7
def isTemplate (h : BlockHeader) : Bool := bitOf h.flags 6
def lastInLayer (h : BlockHeader) : Bool := bitOf h.flags 5
def hasGroups (h : BlockHeader) : Bool := bitOf h.flags 4

/-- Laser n may execute the block (R31). -/
def eligible (h : BlockHeader) (n : Nat) : Bool := bitOf h.eligibility n

/-- A block list entry (Table 2.1). -/
structure ListEntry where
  address : Nat
  sequence : Nat
  listEnd : Bool
  reservedZero : Bool
  deriving DecidableEq, Repr

def parseListEntry (b : Bytes) : ListEntry :=
  let a := leAt b 0 8
  let f := leAt b 0x0C 4
  { address := field a 47 0, sequence := leAt b 8 4, listEnd := bitOf f 0,
    reservedZero := field a 63 48 == 0 && field f 31 1 == 0 }

/-- The checks of one header at ARM, in code order: 0x01 to 0x06 (Table 2.6); 0 when all pass. -/
def headerCheck (b : Bytes) : Nat :=
  let h := parseHeader b
  if h.tag != 0x5142 || h.version != 1 then 0x01
  else if h.headerCrc != crc32c (b.take 0x1C) then 0x02
  else if h.wordCount == 0 || h.wordCount > 8192 then 0x03
  else if h.compressedLength == 0 || h.compressedLength > 65546 then 0x04
  else if field h.eligibility 11 0 == 0 || field h.eligibility 15 12 != 0 || h.homeLaser > 11
      || !eligible h h.homeLaser || h.reserved07 != 0 || h.reserved16 != 0 || field h.flags 3 0 != 0 then 0x05
  else if h.execTime < 14000 && !lastInLayer h && !isTemplate h then 0x06
  else 0

end Sys2Proof.Machine
end

