-- ==== Sys2Proof/Machine/Motion.lean ====
section
/-!
DEFINITION. The arithmetic of the path: sine and cosine, vector lengths, the jerk-limited jump of R62, MARK
durations (R58), corners (R37), positions along the plan, and exposure units (R36, R92).
-/
namespace Sys2Proof.Machine

/-- Scale of the sine and cosine of `sinCos`. -/
def trigOne : Nat := 2 ^ 48

/-- Sum of the Taylor series with terms c, c·x²/(n(n+1)), … alternating in sign. -/
def taylor : Nat → Int → Int → Nat → Int → Int
  | 0, _, _, _, acc => acc
  | f + 1, x2, term, n, acc =>
    let t := -(term * x2 / (trigOne : Int) / ((n * (n + 1) : Nat) : Int))
    taylor f x2 t (n + 2) (acc + t)

/-- Sine and cosine of an angle within [0, 45°] in 0.001°, scaled. -/
def sinCosBase (m : Nat) : Int × Int :=
  -- π / 180,000 scaled by 2^80
  let x : Int := ((m * 21099735964646325449) / 2 ^ 32 : Nat)
  let x2 := x * x / (trigOne : Int)
  (taylor 12 x2 x 2 x, taylor 12 x2 (trigOne : Int) 1 (trigOne : Int))

/-- Sine and cosine of an angle in 0.001°, scaled by 2^48; exact at multiples of 90°. -/
def sinCos (mdeg : Int) : Int × Int :=
  let m := (mdeg % 360000).toNat
  let q := m / 90000
  let r := m % 90000
  let (sn, cs) :=
    if r ≤ 45000 then sinCosBase r else let p := sinCosBase (90000 - r); (p.2, p.1)
  match q with
  | 0 => (sn, cs)
  | 1 => (cs, -sn)
  | 2 => (-sn, -cs)
  | _ => (-cs, sn)

/-- Square of a distance. -/
def dist2 (dx dy : Int) : Nat := (dx * dx + dy * dy).toNat

/-- Length of a vector in 1/65,536 of its unit, rounded down. -/
def length16 (dx dy : Int) : Nat := isqrt (dist2 dx dy * 2 ^ 32)

/-- Cube root, rounded down, by bits from 2^fuel down. -/
def icbrtFrom : Nat → Nat → Nat → Nat
  | 0, _, r => r
  | f + 1, n, r =>
    let c := r + 2 ^ f
    icbrtFrom f n (if c * c * c ≤ n then c else r)

def icbrt (n : Nat) : Nat := icbrtFrom (n.log2 / 3 + 1) n 0

/-- A planned jump: N updates, and the jerk, constant-acceleration and cruise times, in 1/2^64 update, rounded
down. -/
structure JumpPlan where
  n : Nat
  tj : Nat
  ta : Nat
  tc : Nat
  deriving DecidableEq, Repr

/-- Time parts of a jump plan in one update. -/
def jumpOne : Nat := 2 ^ 64

/-- The least of n − 1, n and n + 1 that is long enough. -/
def leastNear (enough : Nat → Bool) (n : Nat) : Nat :=
  if enough (n - 1) then n - 1 else if enough n then n else n + 1

/-- A jump of length √d2 / 65,536 bed units is at most num / den bed units long. -/
def notLonger (d2 : Nat) (num den : Int) : Bool :=
  decide (0 ≤ num) && decide ((d2 : Int) * den * den ≤ 65536 * 65536 * num * num)

/-- The plan of a jump of length √d2 / 65,536 bed units under JumpSpeed v (10 mm/s), JumpAccel a (10 m/s²) and
JumpJerk j (10^6 m/s³) (R62). In updates: V/A = 2000·v/a, A/J = 20·a/j; V = v/5, A = a/10000 and J = j/200000 in
bed units and updates. N is exact: T ≤ n is decided on squares; the times are rounded down (row 40). -/
def jumpPlan (d2 v a j : Nat) : JumpPlan :=
  let one := jumpOne
  let d := isqrt (d2 * one * one) / 65536 -- bed units × 2^64
  let tjA := 20 * a * one / j
  -- vp < V without full acceleration: T = ∛(32·D/J)
  let cubic : JumpPlan :=
    let t := icbrt (6400000 * d * one * one / j)
    { n := leastNear (fun n => notLonger d2 (j * n * n * n) 6400000) (ceilDiv t one), tj := t / 4, ta := 0, tc := 0 }
  if d2 = 0 then { n := 0, tj := 0, ta := 0, tc := 0 }
  else if a * a ≤ 100 * v * j then
    let vt : Nat := 2000 * v * j + 20 * a * a -- tv(V) = vt / (a·j)
    if 65536 * 65536 * (v * vt) * (v * vt) ≤ d2 * (5 * a * j) * (5 * a * j) then
      -- T = D/V + tv(V)
      let t := 5 * d / v + vt * one / (a * j)
      let ta := (2000 * v * j - 20 * a * a) * one / (a * j)
      { n := leastNear (fun n => notLonger d2 (v * ((n : Int) * a * j - vt)) (5 * a * j)) (ceilDiv t one)
        tj := tjA, ta := ta, tc := t - (4 * tjA + 2 * ta) }
    else if 65536 * 65536 * (8 * a * a * a) * (8 * a * a * a) ≤ d2 * (100 * j * j) * (100 * j * j) then
      -- vp < V at full acceleration: T = A/J + √((A/J)² + 4·D/A)
      let t := tjA + isqrt (tjA * tjA + 40000 * d * one / a)
      { n := leastNear (fun n => notLonger d2 (a * n * ((n : Int) * j - 40 * a)) (40000 * j)) (ceilDiv t one)
        tj := tjA, ta := (t - 4 * tjA) / 2, tc := 0 }
    else cubic
  else
    -- tv(V) = 2·√(V/J) = 400·√(v/j)
    let tv := isqrt (160000 * v * one * one / j)
    -- D ≥ V·tv(V) as squares: D² ≥ 6400·v³/j
    if 65536 * 65536 * (6400 * v * v * v) ≤ d2 * j then
      let t := 5 * d / v + tv
      -- √x + √y ≤ n with x = (D/V)² and y = tv(V)², over the denominator 65536²·v²·j
      let x := 25 * d2 * j
      let y := 160000 * v * (65536 * 65536 * v * v)
      let den := 65536 * 65536 * v * v * j
      let enough := fun (n : Nat) =>
        decide (x + y ≤ n * n * den) && decide (4 * x * y ≤ (n * n * den - x - y) * (n * n * den - x - y))
      { n := leastNear enough (ceilDiv t one), tj := tv / 2, ta := 0, tc := t - 4 * (tv / 2) }
    else cubic

/-- Distance covered at time t of a profile with jerk 6: first half. -/
def profileHalf (tj ta t : Nat) : Nat :=
  if t ≤ tj then t * t * t
  else if t ≤ tj + ta then
    let u := t - tj
    tj * tj * tj + 3 * tj * tj * u + 3 * tj * u * u
  else
    let p2 := tj * tj * tj + 3 * tj * tj * ta + 3 * tj * ta * ta
    let v2 := 3 * tj * tj + 6 * tj * ta
    if t ≤ 2 * tj + ta then
      let u := t - tj - ta
      p2 + v2 * u + 3 * tj * u * u - u * u * u
    else
      p2 + v2 * tj + 2 * tj * tj * tj + (v2 + 3 * tj * tj) * (t - 2 * tj - ta)

/-- Part of the distance covered at step j of N, as a fraction (numerator, denominator). -/
def jumpFraction (p : JumpPlan) (j : Nat) : Nat × Nat :=
  let total := 4 * p.tj + 2 * p.ta + p.tc
  let t := if p.n = 0 then total else j * total / p.n
  let half := profileHalf p.tj p.ta (total / 2)
  if half = 0 then (1, 1)
  else if j ≥ p.n then (1, 1)
  else if 2 * t ≤ total then (profileHalf p.tj p.ta t, 2 * half)
  else (2 * half - profileHalf p.tj p.ta (total - t), 2 * half)

/-- Time unit of the plan: parts of an update. It holds the 1/65,536 update of R58 and the 1/320 update of a gate edge
or a DWELL (R39, R64) as whole numbers. -/
def upd : Nat := 327680

/-- Duration of a MARK whose vector is given in 1/65,536 bed unit: to the nearest 1/65,536 update, a tie rounded up
(R58), in plan time. -/
def markDuration (dx dy : Int) (speed : Nat) : Nat :=
  5 * ((isqrt (4 * 50000 * 50000 * dist2 dx dy) + speed) / (2 * speed))

/-- A MARK is at least one update long (R37). -/
def markLongEnough (dx dy : Int) (speed : Nat) : Bool :=
  decide (speed * speed ≤ dist2 dx dy * (50000 * 50000))

/-- The square of the cosine of an angle in degrees as a fraction: exact at the multiples of 30° and 45°, elsewhere
within 2^−46 (row 40). -/
def cosSquare (degrees : Nat) : Nat × Nat :=
  match degrees with
  | 0 | 180 => (1, 1)
  | 30 | 150 => (3, 4)
  | 45 | 135 => (1, 2)
  | 60 | 120 => (1, 4)
  | 90 => (0, 1)
  | d => let c := (sinCos (d * 1000)).2.natAbs; (c * c, trigOne * trigOne)

/-- The direction changes by more than `degrees` at a vertex (R37): the cosines are compared by sign and square. -/
def cornerExceeds (ax ay bx byy : Int) (degrees : Nat) : Bool :=
  let dot := ax * bx + ay * byy
  let sq := dot.natAbs * dot.natAbs
  let len := dist2 ax ay * dist2 bx byy
  let (n, d) := cosSquare degrees
  if degrees ≤ 90 then decide (dot < 0) || decide (sq * d < n * len) else decide (dot < 0) && decide (n * len < sq * d)

/-- Position at plan time t on one piece of the path, in 1/65,536 bed unit. -/
def motionAt (m : Motion) (t : Nat) : Int × Int :=
  let j := t - m.t0
  match m.phase with
  | .jump =>
    let p := jumpPlan m.jumpDist m.jumpV m.jumpA m.jumpJ
    let (a, b) := jumpFraction p (j / upd)
    (m.x0 + roundDiv ((m.x1 - m.x0) * a) b, m.y0 + roundDiv ((m.y1 - m.y0) * a) b)
  | .mark =>
    if j ≥ m.dur || m.dur = 0 then (m.x1, m.y1)
    else (m.x0 + roundDiv ((m.x1 - m.x0) * j) m.dur, m.y0 + roundDiv ((m.y1 - m.y0) * j) m.dur)
  | _ => (m.x1, m.y1)

/-- The piece of the plan under way at time t: the last whose start is not after t. -/
def motionPiece (plan : List Motion) (t : Nat) : Option Motion :=
  (plan.filter fun m => m.t0 ≤ t).getLast?

/-- A word that moves or holds the spot. -/
def isMotion : VWord → Bool
  | .jump .. | .mark .. | .dwell .. => true
  | _ => false

/-- Words that may stand between a JUMP, a gate-off dwell or a point exposure and the MARK that opens a
segment (R36). -/
def isBetween : VWord → Bool
  | .setMarkSpeed _ | .setJumpLimits .. | .setPower _ | .setFocus _ | .setLaserDelays .. | .setCorner ..
  | .setpoint .. | .label .. | .preempt | .token .. | .seam .. => true
  | _ => false

/-- Words that do not end a mark segment (R36). -/
def inSegmentWord : VWord → Bool
  | .setMarkSpeed _ | .setJumpLimits .. | .setPower _ | .setFocus _ | .setpoint .. | .label .. | .preempt
  | .mark .. | .dwell true _ => true
  | _ => false

/-- The words from the one that begins the next exposure unit, if one follows with no JUMP between. A JUMP leads to the
unit that follows it directly: where a DWELL with GATE 0 stands between them, the unit itself posts its claim (R93;
DEDUCED, row 104). -/
def unitAhead : List VWord → Option (List VWord)
  | [] => none
  | w :: t =>
    match w with
    | .mark .. => some (w :: t)
    | .dwell true _ => some (w :: t)
    | _ => if isBetween w then unitAhead t else none

/-- Grow a rectangle to hold a point. -/
def Rect.hold (r : Rect) (x y : Int) : Rect :=
  { x0 := min r.x0 x, y0 := min r.y0 y, x1 := max r.x1 x, y1 := max r.y1 y }

/-- The rectangle of a mark segment: every vertex of its MARKs (R92). -/
def segmentRect : Rect → List VWord → Rect
  | r, [] => r
  | r, w :: t =>
    match w with
    | .mark _ _ _ x y => segmentRect (r.hold x y) t
    | _ => if inSegmentWord w then segmentRect r t else r

/-- The claim rectangle of the unit that begins the words, from (x, y). -/
def unitRect (x y : Int) (ws : List VWord) : Rect :=
  let r : Rect := { x0 := x, y0 := y, x1 := x, y1 := y }
  match ws with
  | .dwell true _ :: _ => r
  | _ => segmentRect r ws

/-- A MARK with SEAM set follows within the mark segment. -/
def seamInSegment : List VWord → Bool
  | [] => false
  | .mark _ sm _ _ _ :: t => sm || seamInSegment t
  | w :: t => inSegmentWord w && seamInSegment t

/-- The unit that begins the words holds a MARK with SEAM set (R92); a point exposure holds none. -/
def unitHasSeam : List VWord → Bool
  | .dwell true _ :: _ => false
  | ws => seamInSegment ws

end Sys2Proof.Machine
end

