-- ==== Sys2Proof/Config.lean ====
section
/-!
DEFINITION. What the spec leaves to one implementation or to a standard it only names: uninterpreted
constants, so that nothing in Lean can know a value of them (assumption rows 3, 4 and 5).
-/
namespace Sys2Proof.Config

/-- The n-th free value: State.free counts them (row 3). -/
opaque freeNat : Nat → Nat
/-- The n-th free octet string (row 3). -/
opaque freeBytes : Nat → Bytes
/-- Bytes of a record of a type: the spec gives the contents of a record, not its layout, but for
0xB001 (R330, R332; row 4). -/
opaque recordLength : Nat → Nat
/-- Octets of a record's body from its type and the values it names (R330; row 4). -/
opaque recordBody : Nat → List Int → Bytes
/-- SHA-384 of an octet string (R366; row 5). -/
opaque sha384 : Bytes → Bytes
/-- ECDSA P-384 verification: key, message, signature (R366, R369; row 5). -/
opaque ecdsaVerify : Bytes → Bytes → Bytes → Bool
/-- AES-256-GCM opening: key, nonce, additional data, ciphertext, tag (R367; row 5). -/
opaque gcmOpen : Bytes → Bytes → Bytes → Bytes → Bytes → Option Bytes
/-- The content key of R367 from the package key, the ephemeral point and the salt (row 5). -/
opaque contentKey : Bytes → Bytes → Bytes → Bytes
/-- GMAC of a message under the domain key (element 0x0011; row 5). -/
opaque gmac : Bytes → Bytes → Bytes
/-- The DEFLATE encoder's output for TableMode form, Effort and source (R324, R325; row 6). -/
opaque deflate : Nat → Nat → Bytes → Bytes
/-- A certificate matches the operational key (R376, OperationalCert; row 5). -/
opaque certMatches : Bytes → Bytes → Bool
/-- Q15 value of a position of an axis, in counts: the scale of its lane's set-point and measured value (R149; row 3). -/
opaque axisScale : Nat → Int → Int
/-- Bus voltage, mV, to which phase duties are scaled (R246 says only that the applied voltage does not depend on
the bus; row 15). -/
opaque phaseBusMv : Nat
/-- The two octets that make the UDP checksum of a PTP message over IPv6 right (R297; row 119). -/
opaque udpAdjust : Bytes → BitVec 16
/-- Proportional term and new integral, 2^−32 ns a cycle, of the time servo for the log interval, the integral and an
offset in ns (R294 gives bandwidth and damping, not the terms; row 19). -/
opaque servo : Int → Int → Int → Int × Int
/-- Identity values fixed at manufacture (Table 12.8 gives no value; row 7). -/
opaque serialNumber : Bytes
opaque hardwareRevision : Nat
opaque firmwareVersion : Nat
opaque identity : Nat
opaque extendedGrade : Bool
/-- The node values of a head map fitted to observed errors (R199, R200: least squares over a basis the
spec does not write out; row 8). -/
opaque mapFit : List (Int × Int × Int × Int × Int) → List (Nat × Nat × Int × Int × Int)
/-- The minor of major 3 in which an entry appeared (R273, R280: the description gives it, no table does;
row 14). -/
opaque entryMinor : Nat → Nat
/-- The value set of an entry is not a single interval (Table 12.6, Flags bit 0; row 14). -/
opaque entryNotInterval : Nat → Bool
/-- Device virtual address of slot 0 of a camera port's ring (0x7000.15, which no rule gives; row 7). -/
opaque ringBase : Nat → Nat
/-- Public point of a key, PKCS #10 request for a key, and the factory certificate (Tables 18.1 and 18.7; row 5). -/
opaque publicPoint : Bytes → Bytes
opaque certRequest : Bytes → Bytes
opaque factoryCert : Bytes
/-- What a firmware image's octets hold (R369 names the fields, no rule gives the layout; row 4). -/
opaque parseImage : Bytes → FwImage
/-- Lanczos default coefficients of the scaler (Table 10.4 names them only; row 9). -/
opaque lanczosH : List Int
opaque lanczosV : List Int

end Sys2Proof.Config
end

