-- ==== Sys2Proof/Machine/Dictionary.lean ====
section
/-!
DEFINITION. The object dictionary: one row per entry table row of the spec (Tables 1.7, 2.8, 3.10, 4.1,
4.2, 4.5, 5.6, 6.3, 7.9, 8.6, 9.6, 10.4, 11.5, 12.8, 13.4, 14.5, 15.4, 16.6, 17.8, 18.7, 19.12): first
index, index step and number of instances (engine, port, lane, …), first sub-index and number of
sub-indices, type, access, store, default, lowest and highest value (for STR and DOM, length), name, unit.
-/
namespace Sys2Proof.Machine

/-- Entry types (R277, Table 12.6). -/
inductive EType where
  | bool | u8 | u16 | u32 | u64 | i16 | i32 | i64 | q15 | str | dom
  deriving DecidableEq, Repr

/-- Access codes (Table 12.6). -/
inductive Access where
  | ro | rw | wo | rwb | rws
  deriving DecidableEq, Repr

/-- One row of the dictionary. -/
structure Entry where
  index : Nat
  step : Nat
  count : Nat
  sub : Nat
  subs : Nat
  ty : EType
  acc : Access
  /-- kept in profiles (Store P) -/
  stored : Bool
  dflt : Int
  lo : Int
  hi : Int
  name : String
  unit : String
  deriving DecidableEq, Repr

def entriesComm1 : List Entry := [
  ⟨0x1000, 0x1, 1, 1, 1, .str, .ro, false, 0, 0, 255, "PartNumber", ""⟩,
  ⟨0x1000, 0x1, 1, 2, 1, .str, .ro, false, 0, 0, 255, "SerialNumber", ""⟩,
  ⟨0x1000, 0x1, 1, 3, 1, .u16, .ro, false, 0, 0, 65535, "HardwareRevision", ""⟩,
  ⟨0x1000, 0x1, 1, 4, 1, .u32, .ro, false, 0, 0, 4294967295, "FirmwareVersion", ""⟩,
  ⟨0x1000, 0x1, 1, 5, 1, .u64, .ro, false, 0, 0, 18446744073709551615, "Identity", ""⟩,
  ⟨0x1010, 0x1, 1, 1, 1, .u16, .rwb, true, 0, 0, 16383, "NodeId", ""⟩,
  ⟨0x1011, 0x1, 1, 1, 1, .u8, .ro, false, 3, 0, 255, "ProtocolMajor", ""⟩,
  ⟨0x1011, 0x1, 1, 2, 1, .u8, .ro, false, 2, 0, 255, "ProtocolMinor", ""⟩,
  ⟨0x1011, 0x1, 1, 3, 1, .u8, .ro, false, 2, 0, 255, "RunningMinor", ""⟩,
  ⟨0x1011, 0x1, 1, 4, 1, .u16, .ro, false, 0, 0, 65535, "MinorSetBy", ""⟩,
  ⟨0x1012, 0x1, 1, 1, 1, .u16, .rwb, true, 49731, 1024, 65535, "ChoyrPort", ""⟩,
  ⟨0x1012, 0x1, 1, 2, 1, .u16, .rwb, true, 1400, 512, 8900, "MaxMessage", "byte"⟩,
  ⟨0x1012, 0x1, 1, 3, 1, .u16, .rwb, true, 3000, 100, 60000, "SessionTimeout", "ms"⟩,
  ⟨0x1012, 0x1, 1, 4, 1, .u8, .rwb, true, 0, 0, 1, "HostLossAction", ""⟩,
  ⟨0x1012, 0x1, 1, 5, 1, .u16, .rwb, true, 1000, 100, 5000, "AnnouncePeriod", "ms"⟩,
  ⟨0x1013, 0x1, 1, 1, 1, .u32, .rwb, true, 0, 0, 4294967295, "RingIPv4", ""⟩,
  ⟨0x1013, 0x1, 1, 2, 1, .u32, .rwb, true, 4294967040, 0, 4294967295, "RingIPv4Mask", ""⟩,
  ⟨0x1013, 0x1, 1, 3, 1, .u32, .rwb, true, 0, 0, 4294967295, "RingIPv4Gateway", ""⟩,
  ⟨0x1013, 0x1, 1, 4, 1, .dom, .rwb, true, 0, 16, 16, "RingIPv6", ""⟩,
  ⟨0x1014, 0x1, 1, 1, 1, .u32, .rwb, true, 0, 0, 4294967295, "UplinkIPv4", ""⟩,
  ⟨0x1014, 0x1, 1, 2, 1, .u32, .rwb, true, 4294967040, 0, 4294967295, "UplinkIPv4Mask", ""⟩,
  ⟨0x1014, 0x1, 1, 3, 1, .u32, .rwb, true, 0, 0, 4294967295, "UplinkIPv4Gateway", ""⟩,
  ⟨0x1014, 0x1, 1, 4, 1, .dom, .rwb, true, 0, 16, 16, "UplinkIPv6", ""⟩,
  ⟨0x1015, 0x1, 1, 1, 1, .u32, .rwb, true, 4022350153, 3758096384, 4026531839, "DomainGroupV4", ""⟩,
  ⟨0x1015, 0x1, 1, 2, 1, .dom, .rwb, true, 0, 16, 16, "DomainGroupV6", ""⟩,
  ⟨0x1016, 0x1, 1, 1, 1, .u8, .ro, false, 0, 0, 255, "RingStatus", ""⟩,
  ⟨0x1016, 0x1, 1, 2, 1, .u32, .ro, false, 0, 0, 4294967295, "RingBreakCount", ""⟩,
  ⟨0x1017, 0x1, 1, 1, 1, .u8, .ro, false, 0, 0, 255, "OpenSessions", ""⟩,
  ⟨0x1017, 0x1, 1, 2, 1, .u32, .ro, false, 0, 0, 4294967295, "DiscardedMessages", ""⟩,
  ⟨0x1017, 0x1, 1, 3, 1, .bool, .ro, false, 0, 0, 1, "DuplicateNode", ""⟩,
  ⟨0x1F00, 0x1, 1, 1, 1, .u8, .ro, false, 0, 0, 3, "ActiveProfile", ""⟩,
  ⟨0x1F00, 0x1, 1, 2, 1, .u8, .rw, false, 255, 0, 255, "NextProfile", ""⟩,
  ⟨0x1F00, 0x1, 1, 3, 1, .u8, .wo, false, 0, 0, 3, "SwitchProfile", ""⟩,
  ⟨0x1F00, 0x1, 1, 4, 1, .u8, .wo, false, 0, 0, 3, "StoreProfile", ""⟩,
  ⟨0x1F00, 0x1, 1, 5, 1, .u8, .ro, false, 0, 0, 255, "ProfileStatus", ""⟩,
  ⟨0x1F00, 0x1, 1, 6, 1, .u8, .ro, false, 0, 0, 255, "PinSelection", ""⟩,
  ⟨0x1F00, 0x1, 1, 7, 1, .bool, .wo, false, 0, 0, 1, "LoadDefaults", ""⟩,
  ⟨0x1F10, 0x1, 4, 1, 1, .bool, .ro, false, 0, 0, 1, "ProfileValid", ""⟩,
  ⟨0x1F10, 0x1, 4, 2, 1, .u32, .ro, false, 0, 0, 4294967295, "ProfileGeneration", ""⟩,
  ⟨0x1F10, 0x1, 4, 3, 1, .dom, .ro, false, 0, 0, 4294967295, "ProfileImage", ""⟩]

def entriesComm2 : List Entry := [
  ⟨0x1F80, 0x1, 1, 1, 1, .dom, .ro, false, 0, 0, 4294967295, "DictionaryDescription", ""⟩,
  ⟨0x1F80, 0x1, 1, 2, 1, .u32, .ro, false, 0, 0, 4294967295, "DescriptionLength", "byte"⟩]

/-- Entries of 0x1xxx. -/
def entriesComm : List Entry := entriesComm1 ++ entriesComm2

def entriesBuild1 : List Entry := [
  ⟨0x2000, 0x1, 1, 1, 1, .u8, .ro, false, 0, 0, 255, "ModuleState", ""⟩,
  ⟨0x2000, 0x1, 1, 2, 1, .u8, .ro, false, 1, 0, 255, "PreviousState", ""⟩,
  ⟨0x2000, 0x1, 1, 3, 1, .u16, .ro, false, 0, 0, 65535, "TransitionCause", ""⟩,
  ⟨0x2000, 0x1, 1, 4, 1, .u64, .ro, false, 0, 0, 18446744073709551615, "StateEntryTick", "tick"⟩,
  ⟨0x2001, 0x1, 1, 1, 1, .u8, .wo, false, 0, 1, 10, "StateCommand", ""⟩,
  ⟨0x2001, 0x1, 1, 2, 1, .u16, .ro, false, 0, 0, 65535, "CommandStatus", ""⟩,
  ⟨0x2010, 0x1, 1, 1, 1, .u8, .ro, false, 0, 0, 255, "ArmCheckCode", ""⟩,
  ⟨0x2010, 0x1, 1, 2, 1, .u64, .ro, false, 0, 0, 18446744073709551615, "ArmCheckAddress", ""⟩,
  ⟨0x2010, 0x1, 1, 3, 1, .u16, .ro, false, 0, 0, 65535, "ArmCheckContext", ""⟩,
  ⟨0x2002, 0x1, 1, 1, 1, .bool, .ro, false, 0, 0, 1, "SafetyOk", ""⟩,
  ⟨0x2002, 0x1, 1, 2, 1, .u32, .ro, false, 0, 0, 4294967295, "SafetyOkFallCount", ""⟩,
  ⟨0x2800, 0x1, 1, 1, 1, .u32, .rwb, true, 800000, 10000, 800000, "BedWidth", "µm"⟩,
  ⟨0x2800, 0x1, 1, 2, 1, .u32, .rwb, true, 600000, 10000, 600000, "BedDepth", "µm"⟩,
  ⟨0x2810, 0x1, 12, 1, 1, .i32, .rwb, true, 0, (-2147483648), 2147483647, "FieldCentreX", "25 nm"⟩,
  ⟨0x2810, 0x1, 12, 2, 1, .i32, .rwb, true, 0, (-2147483648), 2147483647, "FieldCentreY", "25 nm"⟩,
  ⟨0x2810, 0x1, 12, 3, 1, .i32, .rwb, true, 0, (-180000), 180000, "FieldRotation", "0.001°"⟩,
  ⟨0x2810, 0x1, 12, 4, 1, .i32, .rwb, true, 0, (-2147483648), 2147483647, "RegionXMin", "25 nm"⟩,
  ⟨0x2810, 0x1, 12, 5, 1, .i32, .rwb, true, 0, (-2147483648), 2147483647, "RegionXMax", "25 nm"⟩,
  ⟨0x2810, 0x1, 12, 6, 1, .i32, .rwb, true, 0, (-2147483648), 2147483647, "RegionYMin", "25 nm"⟩,
  ⟨0x2810, 0x1, 12, 7, 1, .i32, .rwb, true, 0, (-2147483648), 2147483647, "RegionYMax", "25 nm"⟩,
  ⟨0x2801, 0x1, 1, 1, 1, .u32, .rwb, true, 4000, 0, 50000, "MinSpacing", "µm"⟩,
  ⟨0x2801, 0x1, 1, 2, 1, .u16, .rwb, true, 0, 0, 35999, "GasFlowAngle", "0.01°"⟩,
  ⟨0x2801, 0x1, 1, 3, 1, .u32, .rwb, true, 20000, 0, 200000, "KeepOutLength", "µm"⟩,
  ⟨0x2801, 0x1, 1, 4, 1, .u32, .rwb, true, 2000, 0, 50000, "KeepOutHalfWidth", "µm"⟩,
  ⟨0x2801, 0x1, 1, 5, 1, .u16, .rwb, true, 250, 0, 2000, "KeepOutSpread", "1/1,000"⟩,
  ⟨0x2801, 0x1, 1, 6, 1, .u32, .rwb, true, 1000, 0, 20000, "KeepOutUpstream", "µm"⟩,
  ⟨0x2801, 0x1, 1, 7, 1, .u16, .rwb, true, 300, 0, 10000, "KeepOutPersist", "µs"⟩,
  ⟨0x2801, 0x1, 1, 8, 1, .bool, .rwb, true, 1, 0, 1, "KeepOutEnable", ""⟩,
  ⟨0x2802, 0x1, 1, 1, 1, .u32, .rwb, true, 8000, 0, 19000, "StealThreshold", "µs"⟩,
  ⟨0x2803, 0x1, 1, 1, 1, .u16, .rwb, true, 100, 10, 2000, "SeamOverlapDefault", "µm"⟩,
  ⟨0x2803, 0x1, 1, 2, 1, .u32, .rwb, true, 5000, 20, 1000000, "SeamLagMax", "µs"⟩,
  ⟨0x2803, 0x1, 1, 3, 1, .u32, .rwb, true, 50, 1, 10000, "TokenTimeout", "ms"⟩,
  ⟨0x2804, 0x1, 1, 1, 1, .u8, .ro, false, 0, 0, 255, "ActiveClaims", ""⟩,
  ⟨0x2804, 0x1, 1, 2, 1, .u8, .ro, false, 0, 0, 255, "WaitingClaims", ""⟩,
  ⟨0x2808, 0x1, 1, 1, 64, .u16, .ro, false, 0, 0, 65535, "TokenCount", ""⟩,
  ⟨0x2809, 0x1, 1, 1, 64, .u8, .ro, false, 0, 0, 255, "SeamMailboxFill", ""⟩,
  ⟨0x2003, 0x1, 1, 1, 1, .dom, .rw, false, 0, 12, 12, "ScheduledStart", ""⟩,
  ⟨0x2003, 0x1, 1, 2, 1, .u8, .rwb, true, 0, 0, 2, "LayerSyncMode", ""⟩,
  ⟨0x2003, 0x1, 1, 3, 1, .u32, .rwb, true, 1000000, 1000, 3600000000, "LayerSyncPeriod", "µs"⟩,
  ⟨0x2003, 0x1, 1, 4, 1, .dom, .rw, false, 0, 12, 12, "LayerStartAt", ""⟩]

def entriesBuild2 : List Entry := [
  ⟨0x2004, 0x1, 1, 1, 1, .bool, .rw, false, 0, 0, 1, "ResumeArm", ""⟩,
  ⟨0x2004, 0x1, 1, 2, 1, .bool, .ro, false, 0, 0, 1, "ResumeAvailable", ""⟩,
  ⟨0x2004, 0x1, 1, 3, 1, .u32, .ro, false, 0, 0, 4294967295, "ResumeLayer", ""⟩,
  ⟨0x2004, 0x1, 1, 4, 1, .u8, .ro, false, 0, 0, 255, "ResumeCause", ""⟩,
  ⟨0x2004, 0x1, 1, 5, 1, .bool, .wo, false, 0, 0, 1, "ResumeDiscard", ""⟩]

/-- Entries of 0x2xxx. -/
def entriesBuild : List Entry := entriesBuild1 ++ entriesBuild2

def entriesEngines1 : List Entry := [
  ⟨0x3002, 0x100, 13, 1, 1, .u32, .ro, false, 0, 0, 4294967295, "BufferedTime", "µs"⟩,
  ⟨0x3002, 0x100, 13, 2, 1, .u32, .ro, false, 0, 0, 4294967295, "BufferedTimeMin", "µs"⟩,
  ⟨0x3002, 0x100, 13, 3, 1, .u32, .ro, false, 0, 0, 4294967295, "BelowObligationCount", ""⟩,
  ⟨0x3003, 0x100, 13, 1, 1, .u32, .ro, false, 0, 0, 4294967295, "RejectedBlockCount", ""⟩,
  ⟨0x3003, 0x100, 13, 2, 1, .u64, .ro, false, 0, 0, 18446744073709551615, "LastRejectAddress", ""⟩,
  ⟨0x3003, 0x100, 13, 3, 1, .u8, .ro, false, 0, 0, 255, "LastRejectCode", ""⟩,
  ⟨0x3003, 0x100, 13, 4, 1, .u16, .ro, false, 0, 0, 65535, "LastRejectOffset", ""⟩,
  ⟨0x3003, 0x100, 13, 5, 1, .u32, .ro, false, 0, 0, 4294967295, "ExecTimeDeviationCount", ""⟩,
  ⟨0x3000, 0x100, 12, 1, 1, .u8, .ro, false, 0, 0, 255, "EngineState", ""⟩,
  ⟨0x3C00, 0x100, 1, 1, 1, .u8, .ro, false, 6, 0, 255, "EngineState", ""⟩,
  ⟨0x3000, 0x100, 13, 2, 1, .u16, .ro, false, 0, 0, 65535, "StateCause", ""⟩,
  ⟨0x3000, 0x1, 1, 3, 1, .u8, .ro, false, 0, 0, 255, "RoutedLaser", ""⟩,
  ⟨0x3100, 0x1, 1, 3, 1, .u8, .ro, false, 1, 0, 255, "RoutedLaser", ""⟩,
  ⟨0x3200, 0x1, 1, 3, 1, .u8, .ro, false, 2, 0, 255, "RoutedLaser", ""⟩,
  ⟨0x3300, 0x1, 1, 3, 1, .u8, .ro, false, 3, 0, 255, "RoutedLaser", ""⟩,
  ⟨0x3400, 0x1, 1, 3, 1, .u8, .ro, false, 4, 0, 255, "RoutedLaser", ""⟩,
  ⟨0x3500, 0x1, 1, 3, 1, .u8, .ro, false, 5, 0, 255, "RoutedLaser", ""⟩,
  ⟨0x3600, 0x1, 1, 3, 1, .u8, .ro, false, 6, 0, 255, "RoutedLaser", ""⟩,
  ⟨0x3700, 0x1, 1, 3, 1, .u8, .ro, false, 7, 0, 255, "RoutedLaser", ""⟩,
  ⟨0x3800, 0x1, 1, 3, 1, .u8, .ro, false, 8, 0, 255, "RoutedLaser", ""⟩,
  ⟨0x3900, 0x1, 1, 3, 1, .u8, .ro, false, 9, 0, 255, "RoutedLaser", ""⟩,
  ⟨0x3A00, 0x1, 1, 3, 1, .u8, .ro, false, 10, 0, 255, "RoutedLaser", ""⟩,
  ⟨0x3B00, 0x1, 1, 3, 1, .u8, .ro, false, 11, 0, 255, "RoutedLaser", ""⟩,
  ⟨0x3C00, 0x1, 1, 3, 1, .u8, .ro, false, 255, 0, 255, "RoutedLaser", ""⟩,
  ⟨0x3000, 0x100, 13, 4, 1, .i32, .ro, false, 0, (-2147483648), 2147483647, "SetPointX", "25 nm"⟩,
  ⟨0x3000, 0x100, 13, 5, 1, .i32, .ro, false, 0, (-2147483648), 2147483647, "SetPointY", "25 nm"⟩,
  ⟨0x3004, 0x100, 13, 1, 1, .u32, .ro, false, 0, 0, 4294967295, "ShortGateCount", ""⟩,
  ⟨0x3004, 0x100, 13, 2, 1, .u32, .ro, false, 0, 0, 4294967295, "GateConflictCount", ""⟩,
  ⟨0x3004, 0x100, 13, 3, 1, .u32, .ro, false, 0, 0, 4294967295, "TransformClampCount", ""⟩,
  ⟨0x3004, 0x100, 13, 4, 1, .u32, .ro, false, 0, 0, 4294967295, "HoldFrameCount", ""⟩,
  ⟨0x3005, 0x100, 13, 1, 1, .u32, .ro, false, 0, 0, 4294967295, "ClaimWaitCount", ""⟩,
  ⟨0x3005, 0x100, 13, 2, 1, .u32, .ro, false, 0, 0, 4294967295, "ClaimWaitMax", "tick"⟩,
  ⟨0x3005, 0x100, 13, 3, 1, .u32, .ro, false, 0, 0, 4294967295, "ParkCount", ""⟩,
  ⟨0x3005, 0x100, 13, 4, 1, .u32, .ro, false, 0, 0, 4294967295, "StealCount", ""⟩,
  ⟨0x3005, 0x100, 13, 5, 1, .u32, .ro, false, 0, 0, 4294967295, "StolenCount", ""⟩,
  ⟨0x3005, 0x100, 13, 6, 1, .u32, .ro, false, 0, 0, 4294967295, "TokenTimeoutCount", ""⟩,
  ⟨0x3D00, 0x1, 1, 1, 1, .u16, .ro, false, 512, 0, 65535, "FreeContexts", ""⟩,
  ⟨0x3D00, 0x1, 1, 2, 1, .u8, .ro, false, 96, 0, 255, "FreeSaveSlots", ""⟩,
  ⟨0x3D00, 0x1, 1, 3, 1, .u32, .ro, false, 0, 0, 4294967295, "SpillCount", ""⟩,
  ⟨0x3D00, 0x1, 1, 4, 1, .u32, .ro, false, 0, 0, 4294967295, "FillCount", ""⟩]

def entriesEngines2 : List Entry := [
  ⟨0x3D00, 0x1, 1, 5, 1, .u32, .ro, false, 0, 0, 4294967295, "PreemptDeferCount", ""⟩,
  ⟨0x3D01, 0x1, 1, 1, 1, .u32, .ro, false, 0, 0, 4294967295, "FaultCount", ""⟩,
  ⟨0x3D01, 0x1, 1, 2, 1, .u8, .ro, false, 0, 0, 255, "FaultsPending", ""⟩,
  ⟨0x3D01, 0x1, 1, 3, 1, .u32, .rwb, true, 1000, 10, 60000, "FaultTimeout", "ms"⟩,
  ⟨0x3D01, 0x1, 1, 4, 1, .dom, .ro, false, 0, 0, 4294967295, "LastFault", ""⟩,
  ⟨0x3D10, 0x1, 1, 1, 1, .dom, .wo, false, 0, 32, 32, "DmaSubmit", ""⟩,
  ⟨0x3D10, 0x1, 1, 2, 1, .u32, .ro, false, 0, 0, 4294967295, "DmaLastTag", ""⟩,
  ⟨0x3D10, 0x1, 1, 3, 1, .u16, .ro, false, 0, 0, 65535, "DmaLastStatus", ""⟩,
  ⟨0x3D40, 0x1, 64, 1, 1, .u64, .ro, false, 0, 0, 18446744073709551615, "TableBase", ""⟩,
  ⟨0x3D40, 0x1, 64, 2, 1, .u64, .ro, false, 0, 0, 18446744073709551615, "SpillBase", ""⟩,
  ⟨0x3D40, 0x1, 64, 3, 1, .u32, .ro, false, 0, 0, 4294967295, "MappedPages", "page"⟩,
  ⟨0x3D40, 0x1, 64, 4, 1, .u32, .ro, false, 0, 0, 4294967295, "SpaceFaultCount", ""⟩,
  ⟨0x3E00, 0x1, 512, 1, 1, .u8, .ro, false, 0, 0, 255, "ContextState", ""⟩,
  ⟨0x3E00, 0x1, 512, 2, 1, .u8, .rwb, false, 0, 0, 255, "Priority", ""⟩,
  ⟨0x3E00, 0x1, 512, 3, 1, .u8, .ro, false, 0, 0, 255, "ContextSpace", ""⟩,
  ⟨0x3E00, 0x1, 512, 4, 1, .u8, .ro, false, 255, 0, 255, "ContextEngine", ""⟩,
  ⟨0x3E00, 0x1, 512, 5, 1, .dom, .ro, false, 0, 0, 4294967295, "Descriptor", ""⟩,
  ⟨0x3006, 0x100, 13, 1, 1, .u8, .ro, false, 0, 0, 255, "SelfCheckStatus", ""⟩,
  ⟨0x3006, 0x100, 13, 2, 1, .u32, .ro, false, 0, 0, 4294967295, "EccCorrectedCount", ""⟩,
  ⟨0x3006, 0x100, 13, 3, 1, .u16, .ro, false, 0, 0, 65535, "DupMaxDeviation", "frame LSB"⟩,
  ⟨0x3006, 0x100, 13, 4, 1, .u64, .ro, false, 0, 0, 18446744073709551615, "FaultTick", "tick"⟩,
  ⟨0x3C10, 0x1, 1, 1, 1, .u8, .ro, false, 0, 0, 255, "SpareState", ""⟩,
  ⟨0x3C10, 0x1, 1, 2, 1, .u8, .ro, false, 255, 0, 255, "StandinFor", ""⟩,
  ⟨0x3C10, 0x1, 1, 3, 1, .u32, .ro, false, 0, 0, 4294967295, "TakeoverCount", ""⟩,
  ⟨0x3C10, 0x1, 1, 4, 1, .u8, .ro, false, 0, 0, 255, "LastGap", "tick"⟩,
  ⟨0x3C10, 0x1, 1, 5, 1, .u8, .rw, false, 255, 0, 255, "TrimRequest", ""⟩,
  ⟨0x3C10, 0x1, 1, 6, 1, .u16, .rwb, true, 16, 4, 1024, "DupTolerance", "frame LSB"⟩,
  ⟨0x3C10, 0x1, 1, 7, 1, .u32, .ro, false, 0, 0, 4294967295, "RequeuedBlockCount", ""⟩,
  ⟨0x3C10, 0x1, 1, 8, 1, .u32, .ro, false, 0, 0, 4294967295, "CoverageLostBlocks", ""⟩,
  ⟨0x3C10, 0x1, 1, 9, 1, .u8, .ro, false, 0, 0, 255, "StandinSubState", ""⟩]

/-- Entries of 0x3xxx. -/
def entriesEngines : List Entry := entriesEngines1 ++ entriesEngines2

def entriesPorts1 : List Entry := [
  ⟨0x4000, 0x100, 12, 1, 1, .u16, .rwb, true, 0, 0, 640, "GateAlign", "1/8 tick"⟩,
  ⟨0x4000, 0x100, 12, 2, 1, .u8, .rwb, true, 2, 0, 16, "PwrLead", "tick"⟩,
  ⟨0x4000, 0x100, 12, 3, 1, .u16, .rwb, true, 2000, 10, 60000, "ReadyTimeout", "ms"⟩,
  ⟨0x4001, 0x100, 12, 1, 1, .u8, .ro, false, 0, 0, 255, "PortStatus", ""⟩,
  ⟨0x4001, 0x100, 12, 2, 1, .u32, .ro, false, 0, 0, 4294967295, "PwrFallbackCount", ""⟩,
  ⟨0x4001, 0x100, 12, 3, 1, .u32, .ro, false, 0, 0, 4294967295, "UnavailableCount", ""⟩,
  ⟨0x4008, 0x100, 12, 1, 1, .bool, .rwb, true, 1, 0, 1, "LinkEnable", ""⟩,
  ⟨0x4008, 0x100, 12, 2, 1, .u16, .rwb, true, 100, 10, 1000, "StartupTimeout", "ms"⟩,
  ⟨0x4009, 0x100, 12, 1, 1, .u8, .ro, false, 0, 0, 255, "LinkState", ""⟩,
  ⟨0x4009, 0x100, 12, 2, 1, .u32, .ro, false, 0, 0, 4294967295, "HeadRxErrors", ""⟩,
  ⟨0x4009, 0x100, 12, 3, 1, .u32, .ro, false, 0, 0, 4294967295, "UpCrcErrors", ""⟩,
  ⟨0x4009, 0x100, 12, 4, 1, .u32, .ro, false, 0, 0, 4294967295, "LinkLossCount", ""⟩,
  ⟨0x4009, 0x100, 12, 5, 1, .i16, .ro, false, 0, (-32768), 32767, "HeadTemperature", "0.01 °C"⟩,
  ⟨0x4009, 0x100, 12, 6, 1, .u16, .ro, false, 0, 0, 65535, "HeadApplyLatency", "ns"⟩,
  ⟨0x4009, 0x100, 12, 7, 1, .u64, .ro, false, 0, 0, 18446744073709551615, "HeadIdentity", ""⟩,
  ⟨0x400A, 0x100, 12, 1, 1, .u32, .rws, false, 0, 0, 4294967295, "AuxRequest", ""⟩,
  ⟨0x400A, 0x100, 12, 2, 1, .u32, .ro, false, 0, 0, 4294967295, "AuxResponse", ""⟩,
  ⟨0x4002, 0x100, 12, 1, 1, .u16, .rwb, true, 500, 1, 10000, "FullScalePower", "W"⟩]

/-- Entries of 0x4xxx. -/
def entriesPorts : List Entry := entriesPorts1

def entriesMelt1 : List Entry := [
  ⟨0x5000, 0x1, 1, 1, 1, .u8, .rwb, true, 2, 0, 3, "MeltSignalSelect", ""⟩,
  ⟨0x5000, 0x1, 1, 2, 1, .u16, .rwb, true, 40, 1, 4000, "AnomalyTime", "sample"⟩,
  ⟨0x5000, 0x1, 1, 3, 1, .u16, .rwb, true, 8, 0, 400, "AnomalyBlank", "sample"⟩,
  ⟨0x5000, 0x1, 1, 4, 1, .bool, .rwb, true, 0, 0, 1, "RemeltEnable", ""⟩,
  ⟨0x5000, 0x1, 1, 5, 1, .u64, .rwb, true, 0, 0, 18446744073709551615, "RemeltTemplate", ""⟩,
  ⟨0x5000, 0x1, 1, 6, 1, .u8, .rwb, true, 0, 0, 63, "RemeltSpace", ""⟩,
  ⟨0x5000, 0x1, 1, 7, 1, .u8, .rwb, true, 255, 0, 255, "RemeltPriority", ""⟩,
  ⟨0x5100, 0x1, 12, 1, 1, .u16, .ro, false, 0, 0, 65535, "LinkRoundTrip", "ns"⟩,
  ⟨0x5100, 0x1, 12, 2, 1, .bool, .ro, false, 0, 0, 1, "LoopReady", ""⟩,
  ⟨0x5100, 0x1, 12, 3, 1, .u32, .ro, false, 0, 0, 4294967295, "AnomalyCount", ""⟩,
  ⟨0x5100, 0x1, 12, 4, 1, .u32, .ro, false, 0, 0, 4294967295, "RemeltCount", ""⟩,
  ⟨0x5100, 0x1, 12, 5, 1, .u32, .ro, false, 0, 0, 4294967295, "InvalidPairCount", ""⟩,
  ⟨0x5100, 0x1, 12, 6, 1, .u16, .ro, false, 0, 0, 65535, "SignalNow", ""⟩,
  ⟨0x5100, 0x1, 12, 7, 1, .u32, .ro, false, 0, 0, 4294967295, "LookLateCount", ""⟩,
  ⟨0x5200, 0x1, 1, 1, 1, .u8, .rwb, true, 100, 50, 200, "LedgerCellSize", "µm"⟩,
  ⟨0x5200, 0x1, 1, 2, 1, .u16, .rwb, true, 40, 1, 1000, "HalfLife", "ms"⟩,
  ⟨0x5200, 0x1, 1, 3, 1, .u16, .rwb, true, 16384, 0, 65535, "KernelCentre", "1/65,536"⟩,
  ⟨0x5200, 0x1, 1, 4, 1, .u16, .rwb, true, 8192, 0, 65535, "KernelEdge", "1/65,536"⟩,
  ⟨0x5200, 0x1, 1, 5, 1, .u16, .rwb, true, 4096, 0, 65535, "KernelCorner", "1/65,536"⟩,
  ⟨0x5200, 0x1, 1, 6, 1, .bool, .rwb, true, 1, 0, 1, "LedgerEnable", ""⟩,
  ⟨0x5201, 0x1, 1, 1, 1, .u16, .ro, false, 8000, 0, 65535, "GridColumns", "cell"⟩,
  ⟨0x5201, 0x1, 1, 2, 1, .u16, .ro, false, 6000, 0, 65535, "GridRows", "cell"⟩,
  ⟨0x5201, 0x1, 1, 3, 1, .u32, .ro, false, 192000000, 0, 4294967295, "LedgerBytes", "byte"⟩,
  ⟨0x5201, 0x1, 1, 4, 1, .u32, .ro, false, 0, 0, 4294967295, "DepositDropCount", ""⟩,
  ⟨0x5201, 0x1, 1, 5, 1, .u32, .ro, false, 0, 0, 4294967295, "UnknownTileCount", ""⟩,
  ⟨0x5201, 0x1, 1, 6, 1, .u16, .ro, false, 0, 0, 65535, "ApplyLatencyMax", "tick"⟩,
  ⟨0x5210, 0x1, 1, 1, 1, .u16, .rwb, true, 0, 0, 65535, "FfPointCode", ""⟩,
  ⟨0x5210, 0x1, 1, 2, 1, .u16, .rwb, true, 4096, 0, 65535, "FfPointCode", ""⟩,
  ⟨0x5210, 0x1, 1, 3, 1, .u16, .rwb, true, 8192, 0, 65535, "FfPointCode", ""⟩,
  ⟨0x5210, 0x1, 1, 4, 1, .u16, .rwb, true, 12288, 0, 65535, "FfPointCode", ""⟩,
  ⟨0x5210, 0x1, 1, 5, 1, .u16, .rwb, true, 16384, 0, 65535, "FfPointCode", ""⟩,
  ⟨0x5210, 0x1, 1, 6, 1, .u16, .rwb, true, 20480, 0, 65535, "FfPointCode", ""⟩,
  ⟨0x5210, 0x1, 1, 7, 1, .u16, .rwb, true, 24576, 0, 65535, "FfPointCode", ""⟩,
  ⟨0x5210, 0x1, 1, 8, 1, .u16, .rwb, true, 28672, 0, 65535, "FfPointCode", ""⟩,
  ⟨0x5210, 0x1, 1, 9, 1, .u16, .rwb, true, 32768, 0, 65535, "FfPointCode", ""⟩,
  ⟨0x5210, 0x1, 1, 10, 1, .u16, .rwb, true, 36864, 0, 65535, "FfPointCode", ""⟩,
  ⟨0x5210, 0x1, 1, 11, 1, .u16, .rwb, true, 40960, 0, 65535, "FfPointCode", ""⟩,
  ⟨0x5210, 0x1, 1, 12, 1, .u16, .rwb, true, 45056, 0, 65535, "FfPointCode", ""⟩,
  ⟨0x5210, 0x1, 1, 13, 1, .u16, .rwb, true, 49152, 0, 65535, "FfPointCode", ""⟩,
  ⟨0x5210, 0x1, 1, 14, 1, .u16, .rwb, true, 53248, 0, 65535, "FfPointCode", ""⟩]

def entriesMelt2 : List Entry := [
  ⟨0x5210, 0x1, 1, 15, 1, .u16, .rwb, true, 57344, 0, 65535, "FfPointCode", ""⟩,
  ⟨0x5210, 0x1, 1, 16, 1, .u16, .rwb, true, 61440, 0, 65535, "FfPointCode", ""⟩,
  ⟨0x5211, 0x1, 1, 1, 16, .i16, .rwb, true, 0, (-32768), 32767, "FfPointValue", "Q15"⟩,
  ⟨0x5300, 0x1, 1, 1, 4, .u8, .rwb, true, 255, 0, 255, "CamRoute", ""⟩,
  ⟨0x5301, 0x1, 1, 1, 4, .u32, .rwb, true, 0, 0, 100000000, "CamExposureOffset", "ns"⟩,
  ⟨0x5800, 0x20, 20, 1, 1, .u8, .ro, false, 1, 0, 255, "EffectiveMode", ""⟩,
  ⟨0x5800, 0x20, 20, 2, 1, .u8, .ro, false, 1, 0, 255, "ProgrammedMode", ""⟩,
  ⟨0x5800, 0x20, 20, 3, 1, .u8, .ro, false, 0, 0, 255, "LaneStatus", ""⟩,
  ⟨0x5800, 0x20, 20, 4, 1, .q15, .ro, false, 0, (-32768), 32767, "Correction", ""⟩,
  ⟨0x5800, 0x20, 20, 5, 1, .u32, .ro, false, 0, 0, 4294967295, "SatCount", ""⟩,
  ⟨0x5800, 0x20, 20, 6, 1, .u32, .ro, false, 0, 0, 4294967295, "LossCount", ""⟩,
  ⟨0x5800, 0x20, 20, 7, 1, .u32, .ro, false, 0, 0, 4294967295, "HandoverCount", ""⟩,
  ⟨0x5801, 0x20, 20, 1, 1, .u16, .rwb, true, 12288, 0, 65535, "StageOp", ""⟩,
  ⟨0x5801, 0x20, 20, 2, 7, .u16, .rwb, true, 0, 0, 65535, "StageOp", ""⟩,
  ⟨0x5801, 0x20, 20, 9, 1, .u8, .wo, false, 0, 1, 1, "ChainCommit", ""⟩,
  ⟨0x5801, 0x20, 20, 10, 1, .u8, .ro, false, 6, 0, 255, "ChainMacs", ""⟩,
  ⟨0x5801, 0x20, 20, 11, 1, .u8, .rwb, true, 0, 0, 255, "HandoverStage", ""⟩,
  ⟨0x5802, 0x20, 20, 6, 1, .i16, .rwb, true, (-8192), (-32768), 32767, "StageParam", ""⟩,
  ⟨0x5802, 0x20, 20, 7, 1, .i16, .rwb, true, 8192, (-32768), 32767, "StageParam", ""⟩,
  ⟨0x5802, 0x20, 20, 8, 1, .i16, .rwb, true, (-8192), (-32768), 32767, "StageParam", ""⟩,
  ⟨0x5802, 0x20, 20, 9, 1, .i16, .rwb, true, 8192, (-32768), 32767, "StageParam", ""⟩,
  ⟨0x5802, 0x20, 20, 1, 5, .i16, .rwb, true, 0, (-32768), 32767, "StageParam", ""⟩,
  ⟨0x5802, 0x20, 20, 10, 7, .i16, .rwb, true, 0, (-32768), 32767, "StageParam", ""⟩,
  ⟨0x5803, 0x20, 20, 6, 1, .i16, .rwb, true, (-8192), (-32768), 32767, "StageParam", ""⟩,
  ⟨0x5803, 0x20, 20, 7, 1, .i16, .rwb, true, 8192, (-32768), 32767, "StageParam", ""⟩,
  ⟨0x5803, 0x20, 20, 8, 1, .i16, .rwb, true, (-8192), (-32768), 32767, "StageParam", ""⟩,
  ⟨0x5803, 0x20, 20, 9, 1, .i16, .rwb, true, 8192, (-32768), 32767, "StageParam", ""⟩,
  ⟨0x5803, 0x20, 20, 1, 5, .i16, .rwb, true, 0, (-32768), 32767, "StageParam", ""⟩,
  ⟨0x5803, 0x20, 20, 10, 7, .i16, .rwb, true, 0, (-32768), 32767, "StageParam", ""⟩,
  ⟨0x5804, 0x20, 20, 6, 1, .i16, .rwb, true, (-8192), (-32768), 32767, "StageParam", ""⟩,
  ⟨0x5804, 0x20, 20, 7, 1, .i16, .rwb, true, 8192, (-32768), 32767, "StageParam", ""⟩,
  ⟨0x5804, 0x20, 20, 8, 1, .i16, .rwb, true, (-8192), (-32768), 32767, "StageParam", ""⟩,
  ⟨0x5804, 0x20, 20, 9, 1, .i16, .rwb, true, 8192, (-32768), 32767, "StageParam", ""⟩,
  ⟨0x5804, 0x20, 20, 1, 5, .i16, .rwb, true, 0, (-32768), 32767, "StageParam", ""⟩,
  ⟨0x5804, 0x20, 20, 10, 7, .i16, .rwb, true, 0, (-32768), 32767, "StageParam", ""⟩,
  ⟨0x5805, 0x20, 20, 6, 1, .i16, .rwb, true, (-8192), (-32768), 32767, "StageParam", ""⟩,
  ⟨0x5805, 0x20, 20, 7, 1, .i16, .rwb, true, 8192, (-32768), 32767, "StageParam", ""⟩,
  ⟨0x5805, 0x20, 20, 8, 1, .i16, .rwb, true, (-8192), (-32768), 32767, "StageParam", ""⟩,
  ⟨0x5805, 0x20, 20, 9, 1, .i16, .rwb, true, 8192, (-32768), 32767, "StageParam", ""⟩,
  ⟨0x5805, 0x20, 20, 1, 5, .i16, .rwb, true, 0, (-32768), 32767, "StageParam", ""⟩]

def entriesMelt3 : List Entry := [
  ⟨0x5805, 0x20, 20, 10, 7, .i16, .rwb, true, 0, (-32768), 32767, "StageParam", ""⟩,
  ⟨0x5806, 0x20, 20, 6, 1, .i16, .rwb, true, (-8192), (-32768), 32767, "StageParam", ""⟩,
  ⟨0x5806, 0x20, 20, 7, 1, .i16, .rwb, true, 8192, (-32768), 32767, "StageParam", ""⟩,
  ⟨0x5806, 0x20, 20, 8, 1, .i16, .rwb, true, (-8192), (-32768), 32767, "StageParam", ""⟩,
  ⟨0x5806, 0x20, 20, 9, 1, .i16, .rwb, true, 8192, (-32768), 32767, "StageParam", ""⟩,
  ⟨0x5806, 0x20, 20, 1, 5, .i16, .rwb, true, 0, (-32768), 32767, "StageParam", ""⟩,
  ⟨0x5806, 0x20, 20, 10, 7, .i16, .rwb, true, 0, (-32768), 32767, "StageParam", ""⟩,
  ⟨0x5807, 0x20, 20, 6, 1, .i16, .rwb, true, (-8192), (-32768), 32767, "StageParam", ""⟩,
  ⟨0x5807, 0x20, 20, 7, 1, .i16, .rwb, true, 8192, (-32768), 32767, "StageParam", ""⟩,
  ⟨0x5807, 0x20, 20, 8, 1, .i16, .rwb, true, (-8192), (-32768), 32767, "StageParam", ""⟩,
  ⟨0x5807, 0x20, 20, 9, 1, .i16, .rwb, true, 8192, (-32768), 32767, "StageParam", ""⟩,
  ⟨0x5807, 0x20, 20, 1, 5, .i16, .rwb, true, 0, (-32768), 32767, "StageParam", ""⟩,
  ⟨0x5807, 0x20, 20, 10, 7, .i16, .rwb, true, 0, (-32768), 32767, "StageParam", ""⟩,
  ⟨0x5808, 0x20, 20, 6, 1, .i16, .rwb, true, (-8192), (-32768), 32767, "StageParam", ""⟩,
  ⟨0x5808, 0x20, 20, 7, 1, .i16, .rwb, true, 8192, (-32768), 32767, "StageParam", ""⟩,
  ⟨0x5808, 0x20, 20, 8, 1, .i16, .rwb, true, (-8192), (-32768), 32767, "StageParam", ""⟩,
  ⟨0x5808, 0x20, 20, 9, 1, .i16, .rwb, true, 8192, (-32768), 32767, "StageParam", ""⟩,
  ⟨0x5808, 0x20, 20, 1, 5, .i16, .rwb, true, 0, (-32768), 32767, "StageParam", ""⟩,
  ⟨0x5808, 0x20, 20, 10, 7, .i16, .rwb, true, 0, (-32768), 32767, "StageParam", ""⟩,
  ⟨0x5809, 0x20, 20, 6, 1, .i16, .rwb, true, (-8192), (-32768), 32767, "StageParam", ""⟩,
  ⟨0x5809, 0x20, 20, 7, 1, .i16, .rwb, true, 8192, (-32768), 32767, "StageParam", ""⟩,
  ⟨0x5809, 0x20, 20, 8, 1, .i16, .rwb, true, (-8192), (-32768), 32767, "StageParam", ""⟩,
  ⟨0x5809, 0x20, 20, 9, 1, .i16, .rwb, true, 8192, (-32768), 32767, "StageParam", ""⟩,
  ⟨0x5809, 0x20, 20, 1, 5, .i16, .rwb, true, 0, (-32768), 32767, "StageParam", ""⟩,
  ⟨0x5809, 0x20, 20, 10, 7, .i16, .rwb, true, 0, (-32768), 32767, "StageParam", ""⟩,
  ⟨0x580A, 0x20, 20, 1, 1, .q15, .rwb, true, 8192, 0, 32767, "CorrLimit", ""⟩,
  ⟨0x580A, 0x20, 20, 2, 1, .q15, .rwb, true, 328, 0, 32767, "HandoverWindow", ""⟩,
  ⟨0x580A, 0x20, 20, 3, 1, .q15, .rwb, true, 33, 1, 32767, "HandoverSlew", "per run"⟩,
  ⟨0x580B, 0x20, 20, 1, 1, .u8, .rwb, true, 2, 1, 16, "LossLimit", "sample"⟩,
  ⟨0x580B, 0x20, 20, 2, 1, .u16, .rwb, true, 16, 0, 65535, "SignalMin", ""⟩,
  ⟨0x580B, 0x20, 20, 3, 1, .u16, .rwb, true, 65279, 0, 65535, "SignalMax", ""⟩,
  ⟨0x580B, 0x20, 20, 4, 1, .u16, .rwb, true, 2, 0, 65535, "FreezeWindow", ""⟩,
  ⟨0x580B, 0x20, 20, 5, 1, .u16, .rwb, true, 400, 8, 65535, "FreezeCount", "sample"⟩,
  ⟨0x580B, 0x20, 20, 6, 1, .bool, .rwb, true, 1, 0, 1, "AutoReturn", ""⟩,
  ⟨0x580C, 0x20, 20, 1, 1, .u8, .rws, false, 0, 0, 4, "InjType", ""⟩,
  ⟨0x580C, 0x20, 20, 2, 1, .u8, .rws, false, 2, 0, 2, "InjPoint", ""⟩,
  ⟨0x580C, 0x20, 20, 3, 1, .q15, .rws, false, 0, (-32768), 32767, "Amplitude", ""⟩,
  ⟨0x580C, 0x20, 20, 4, 1, .q15, .rws, false, 0, (-32768), 32767, "Offset", ""⟩,
  ⟨0x580C, 0x20, 20, 5, 1, .u32, .rws, false, 0, 0, 2147483648, "Freq1", "2^−32 × rate"⟩,
  ⟨0x580C, 0x20, 20, 6, 1, .u32, .rws, false, 0, 0, 2147483648, "Freq2", "2^−32 × rate"⟩]

def entriesMelt4 : List Entry := [
  ⟨0x580C, 0x20, 20, 7, 1, .u32, .rws, false, 0, 0, 4294967295, "SweepTime", "run"⟩,
  ⟨0x580C, 0x20, 20, 8, 1, .u8, .rws, false, 7, 7, 15, "PrbsLength", "bit"⟩,
  ⟨0x580C, 0x20, 20, 9, 1, .u16, .rws, false, 1, 1, 65535, "PrbsHold", "run"⟩,
  ⟨0x580C, 0x20, 20, 10, 1, .u32, .rws, false, 0, 0, 4294967295, "Delay", "run"⟩,
  ⟨0x580C, 0x20, 20, 11, 1, .u32, .rws, false, 0, 0, 4294967295, "Duration", "run"⟩,
  ⟨0x580C, 0x20, 20, 12, 1, .bool, .rws, false, 0, 0, 1, "InjStart", ""⟩,
  ⟨0x5A2D, 0x20, 3, 1, 16, .u32, .rwb, true, 0, 0, 4294967295, "ProfTime", "ms"⟩,
  ⟨0x5A2E, 0x20, 3, 1, 16, .q15, .rwb, true, 0, (-32768), 32767, "ProfValue", ""⟩,
  ⟨0x5A2F, 0x20, 3, 1, 1, .bool, .wo, false, 0, 0, 1, "ProfStart", ""⟩,
  ⟨0x5A2F, 0x20, 3, 2, 1, .u8, .rwb, true, 0, 0, 16, "ProfLength", "point"⟩,
  ⟨0x5A2F, 0x20, 3, 3, 1, .u8, .rwb, true, 0, 0, 1, "ProfTrigger", ""⟩,
  ⟨0x5A30, 0x20, 3, 1, 1, .u8, .rwb, true, 255, 0, 255, "GenInput", ""⟩,
  ⟨0x5A30, 0x20, 3, 2, 1, .u8, .rwb, true, 255, 0, 255, "GenOutput", ""⟩,
  ⟨0x5F00, 0x1, 1, 1, 1, .u8, .rws, false, 0, 0, 19, "CapLane", ""⟩,
  ⟨0x5F00, 0x1, 1, 2, 4, .u8, .rws, false, 1, 0, 15, "CapSource", ""⟩,
  ⟨0x5F00, 0x1, 1, 6, 1, .u16, .rws, false, 1, 1, 65535, "CapDecimation", "run"⟩,
  ⟨0x5F00, 0x1, 1, 7, 1, .u32, .rws, false, 4000, 1, 131072, "CapLength", "sample"⟩,
  ⟨0x5F00, 0x1, 1, 8, 1, .bool, .rws, false, 0, 0, 1, "CapStart", ""⟩,
  ⟨0x5F00, 0x1, 1, 9, 1, .u8, .ro, false, 0, 0, 255, "CapState", ""⟩,
  ⟨0x5F00, 0x1, 1, 10, 1, .dom, .ro, false, 0, 0, 4294967295, "CapData", ""⟩]

/-- Entries of 0x5xxx. -/
def entriesMelt : List Entry := entriesMelt1 ++ entriesMelt2 ++ entriesMelt3 ++ entriesMelt4

def entriesAxes1 : List Entry := [
  ⟨0x6000, 0x100, 4, 1, 1, .u8, .ro, false, 0, 0, 255, "AxisState", ""⟩,
  ⟨0x6000, 0x100, 4, 2, 1, .u32, .ro, false, 0, 0, 4294967295, "AxisFlags", ""⟩,
  ⟨0x6000, 0x100, 4, 3, 1, .i64, .ro, false, 0, (-9223372036854775808), 9223372036854775807, "CommandPos", "count"⟩,
  ⟨0x6000, 0x100, 4, 4, 1, .i64, .ro, false, 0, (-9223372036854775808), 9223372036854775807, "ActualPos", "count"⟩,
  ⟨0x6000, 0x100, 4, 5, 1, .i32, .ro, false, 0, (-2147483648), 2147483647, "ProfileSpeed", "count/s"⟩,
  ⟨0x6000, 0x100, 4, 6, 1, .i32, .ro, false, 0, (-2147483648), 2147483647, "FollowingError", "count"⟩,
  ⟨0x6000, 0x100, 4, 7, 1, .u16, .ro, false, 0, 0, 65535, "LastResult", ""⟩,
  ⟨0x6000, 0x100, 4, 8, 1, .i64, .ro, false, 0, (-9223372036854775808), 9223372036854775807, "PowerLossPos", "count"⟩,
  ⟨0x6001, 0x100, 4, 1, 1, .u16, .wo, false, 0, 0, 65535, "MoveCommand", ""⟩,
  ⟨0x6001, 0x100, 4, 2, 1, .i64, .rw, false, 0, (-9223372036854775808), 9223372036854775807, "MoveTarget", "count"⟩,
  ⟨0x6001, 0x100, 4, 3, 1, .i32, .rw, false, 0, (-2147483648), 2147483647, "JogSpeed", "count/s"⟩,
  ⟨0x6002, 0x100, 4, 1, 1, .u32, .rw, true, 100000, 1, 100000000, "VelLimit", "count/s"⟩,
  ⟨0x6002, 0x100, 4, 2, 1, .u32, .rw, true, 1000000, 1, 4000000000, "AccelLimit", "count/s²"⟩,
  ⟨0x6002, 0x100, 4, 3, 1, .u32, .rw, true, 50000, 1, 4000000000, "JerkLimit", "1,000 count/s³"⟩,
  ⟨0x6002, 0x100, 4, 4, 1, .u32, .rw, true, 2000000, 0, 4294967295, "StopAccel", "count/s²"⟩,
  ⟨0x6002, 0x100, 4, 5, 1, .u32, .rw, true, 100000, 0, 4294967295, "StopJerk", "1,000 count/s³"⟩,
  ⟨0x6003, 0x100, 4, 1, 1, .u8, .rwb, true, 0, 0, 2, "OutputMode", ""⟩,
  ⟨0x6003, 0x100, 4, 2, 1, .u8, .rwb, true, 8, 4, 10, "StepHigh", "tick"⟩,
  ⟨0x6003, 0x100, 4, 3, 1, .u8, .rwb, true, 16, 4, 255, "DirSetup", "tick"⟩,
  ⟨0x6003, 0x100, 4, 4, 1, .bool, .rwb, true, 0, 0, 1, "DirInvert", ""⟩,
  ⟨0x6003, 0x100, 4, 5, 1, .u16, .rwb, true, 256, 1, 256, "PhaseMicrosteps", "count"⟩,
  ⟨0x6003, 0x100, 4, 6, 1, .u16, .rwb, true, 0, 0, 65535, "PhaseAmplitude", "1/65,535 of AX_VBUS"⟩,
  ⟨0x6003, 0x100, 4, 7, 1, .u16, .rwb, true, 1000, 1, 65535, "WindingR", "mΩ"⟩,
  ⟨0x6003, 0x100, 4, 8, 1, .u16, .rwb, true, 2000, 1, 65535, "WindingL", "µH"⟩,
  ⟨0x6003, 0x100, 4, 9, 1, .u16, .rwb, true, 100, 30, 180, "StallAngle", "° electrical"⟩,
  ⟨0x6003, 0x100, 4, 10, 1, .u8, .rwb, true, 8, 1, 255, "StallCount", "period"⟩,
  ⟨0x6003, 0x100, 4, 11, 1, .u32, .rwb, true, 5000, 0, 4294967295, "StallMinSpeed", "count/s"⟩,
  ⟨0x6003, 0x100, 4, 12, 1, .u16, .rwb, true, 100, 0, 5000, "BrakeDelay", "ms"⟩,
  ⟨0x6003, 0x100, 4, 13, 1, .u8, .rwb, true, 0, 0, 1, "AxisLoopMode", ""⟩,
  ⟨0x6003, 0x100, 4, 14, 1, .u32, .rwb, true, 1000, 0, 4294967295, "CorrScale", "count"⟩,
  ⟨0x6004, 0x100, 4, 1, 1, .u16, .rwb, true, 16, 1, 256, "InterpFactor", "count"⟩,
  ⟨0x6004, 0x100, 4, 2, 1, .i64, .ro, false, 0, (-9223372036854775808), 9223372036854775807, "StepInCount", "step"⟩,
  ⟨0x6005, 0x100, 4, 1, 1, .u8, .rwb, true, 0, 0, 2, "FeedbackType", ""⟩,
  ⟨0x6005, 0x100, 4, 2, 1, .u8, .rwb, true, 3, 0, 31, "FilterTicks", "tick"⟩,
  ⟨0x6005, 0x100, 4, 3, 1, .bool, .rwb, true, 0, 0, 1, "EncInvert", ""⟩,
  ⟨0x6005, 0x100, 4, 4, 1, .i32, .rwb, true, 65536, (-2147483648), 2147483647, "EncScale", "1/65,536"⟩,
  ⟨0x6005, 0x100, 4, 5, 1, .u32, .rwb, true, 0, 0, 2147483648, "EncModulus", "count"⟩,
  ⟨0x6005, 0x100, 4, 6, 1, .u8, .rwb, true, 0, 0, 1, "IndexMode", ""⟩,
  ⟨0x6005, 0x100, 4, 7, 1, .u8, .rwb, true, 255, 0, 255, "IndexGate", ""⟩,
  ⟨0x6005, 0x100, 4, 8, 1, .u16, .rwb, true, 1, 0, 65535, "IndexTolerance", "count"⟩]

def entriesAxes2 : List Entry := [
  ⟨0x6005, 0x100, 4, 9, 1, .u16, .rwb, true, 8192, 0, 65535, "AmpLow", "Q2.14"⟩,
  ⟨0x6005, 0x100, 4, 10, 1, .u16, .rwb, true, 21299, 0, 65535, "AmpHigh", "Q2.14"⟩,
  ⟨0x6005, 0x100, 4, 11, 1, .u8, .rwb, true, 4, 1, 255, "AmpCount", "sample"⟩,
  ⟨0x6005, 0x100, 4, 12, 1, .u16, .rwb, true, 10, 1, 10000, "StandstillTimeout", "ms"⟩,
  ⟨0x6005, 0x100, 4, 13, 1, .u16, .rwb, true, 2, 0, 65535, "EncNoise", "count"⟩,
  ⟨0x6005, 0x100, 4, 14, 1, .u32, .rwb, true, 1000, 0, 4294967295, "FreezeSpeed", "count/s"⟩,
  ⟨0x6005, 0x100, 4, 15, 1, .u16, .rwb, true, 50, 2, 65535, "FreezeCount", "period"⟩,
  ⟨0x6005, 0x100, 4, 16, 1, .u32, .rwb, true, 1000, 1, 2147483648, "FollowLimit", "count"⟩,
  ⟨0x6005, 0x100, 4, 17, 1, .u32, .rwb, true, 10, 0, 4294967295, "InPosWindow", "count"⟩,
  ⟨0x6005, 0x100, 4, 18, 1, .u16, .rwb, true, 5, 0, 10000, "InPosTime", "ms"⟩,
  ⟨0x6005, 0x100, 4, 19, 1, .i16, .rwb, true, 0, (-32768), 32767, "SinOffset", "Q2.14"⟩,
  ⟨0x6005, 0x100, 4, 20, 1, .i16, .rwb, true, 0, (-32768), 32767, "CosOffset", "Q2.14"⟩,
  ⟨0x6005, 0x100, 4, 21, 1, .i16, .rwb, true, 16384, (-32768), 32767, "CosGain", "Q2.14"⟩,
  ⟨0x6006, 0x100, 4, 1, 1, .u32, .ro, false, 0, 0, 4294967295, "EncCount", "count"⟩,
  ⟨0x6006, 0x100, 4, 2, 1, .i32, .ro, false, 0, (-2147483648), 2147483647, "EncRevolutions", ""⟩,
  ⟨0x6006, 0x100, 4, 3, 1, .i64, .ro, false, 0, (-9223372036854775808), 9223372036854775807, "EncPosition", "count"⟩,
  ⟨0x6006, 0x100, 4, 4, 1, .i32, .ro, false, 0, (-2147483648), 2147483647, "Speed", "count/s"⟩,
  ⟨0x6006, 0x100, 4, 5, 1, .u32, .ro, false, 0, 0, 4294967295, "IllegalTransitionCount", ""⟩,
  ⟨0x6006, 0x100, 4, 6, 1, .i32, .ro, false, 0, (-2147483648), 2147483647, "IndexDeviation", "count"⟩,
  ⟨0x6006, 0x100, 4, 7, 1, .dom, .ro, false, 0, 0, 4294967295, "LatchRecord", ""⟩,
  ⟨0x6006, 0x100, 4, 8, 1, .u16, .ro, false, 0, 0, 65535, "Amplitude", "Q2.14"⟩,
  ⟨0x6007, 0x100, 4, 1, 1, .u8, .rwb, true, 0, 0, 7, "SwitchPolarity", ""⟩,
  ⟨0x6007, 0x100, 4, 2, 1, .u16, .rwb, true, 2000, 10, 100000, "DebounceTime", "µs"⟩,
  ⟨0x6007, 0x100, 4, 3, 1, .u8, .rwb, true, 8, 2, 255, "ChatterCount", ""⟩,
  ⟨0x6007, 0x100, 4, 4, 1, .u16, .rwb, true, 100, 1, 10000, "ChatterWindow", "ms"⟩,
  ⟨0x6007, 0x100, 4, 5, 1, .u8, .rwb, true, 3, 1, 8, "HomeMode", ""⟩,
  ⟨0x6007, 0x100, 4, 6, 1, .u32, .rwb, true, 10000, 0, 4294967295, "HomeSpeedFast", "count/s"⟩,
  ⟨0x6007, 0x100, 4, 7, 1, .u32, .rwb, true, 1000, 0, 4294967295, "HomeSpeedSlow", "count/s"⟩,
  ⟨0x6007, 0x100, 4, 8, 1, .i64, .rwb, true, 0, (-9223372036854775808), 9223372036854775807, "HomePosition", "count"⟩,
  ⟨0x6007, 0x100, 4, 9, 1, .u16, .rwb, true, 60, 1, 3600, "HomeTimeout", "s"⟩,
  ⟨0x6008, 0x100, 4, 1, 1, .u8, .rwb, true, 0, 0, 2, "LayerMoveMode", ""⟩,
  ⟨0x6008, 0x100, 4, 2, 1, .i32, .rwb, true, 0, (-2147483648), 2147483647, "LayerDelta", "count"⟩,
  ⟨0x6008, 0x100, 4, 3, 1, .u8, .rwb, true, 0, 0, 3, "LayerStage", ""⟩]

/-- Entries of 0x6xxx. -/
def entriesAxes : List Entry := entriesAxes1 ++ entriesAxes2

def entriesImaging1 : List Entry := [
  ⟨0x7000, 0x1, 5, 1, 1, .bool, .rwb, true, 0, 0, 1, "PortEnable", ""⟩,
  ⟨0x7000, 0x1, 1, 2, 1, .u8, .rwb, true, 4, 0, 255, "Lanes", "lane"⟩,
  ⟨0x7001, 0x1, 4, 2, 1, .u8, .rwb, true, 2, 0, 255, "Lanes", "lane"⟩,
  ⟨0x7000, 0x1, 5, 3, 1, .u16, .rwb, true, 1000, 80, 1500, "LaneRate", "Mb/s"⟩,
  ⟨0x7000, 0x1, 5, 4, 1, .u8, .rwb, true, 43, 42, 44, "DataType", ""⟩,
  ⟨0x7000, 0x1, 5, 5, 1, .u8, .rwb, true, 0, 0, 3, "VirtualChannel", ""⟩,
  ⟨0x7000, 0x1, 5, 6, 1, .u16, .rwb, true, 1920, 64, 16384, "Width", "pixel"⟩,
  ⟨0x7000, 0x1, 5, 7, 1, .u16, .rwb, true, 1080, 8, 16384, "Height", "line"⟩,
  ⟨0x7000, 0x1, 5, 8, 1, .u8, .rwb, true, 3, 3, 16, "RingSlots", ""⟩,
  ⟨0x7000, 0x1, 5, 9, 1, .u16, .rwb, true, 1000, 1, 10000, "FrameTimeout", "ms"⟩,
  ⟨0x7000, 0x1, 5, 10, 1, .u8, .wo, false, 0, 1, 1, "PortCommit", ""⟩,
  ⟨0x7000, 0x1, 5, 11, 1, .u16, .ro, false, 0, 0, 65535, "PortCommitStatus", ""⟩,
  ⟨0x7000, 0x1, 5, 12, 1, .u8, .rwb, true, 0, 0, 3, "TrigMode", ""⟩,
  ⟨0x7000, 0x1, 5, 13, 1, .u32, .rwb, true, 2500, 1, 1000000, "TrigPeriod", "scan"⟩,
  ⟨0x7000, 0x1, 5, 14, 1, .u16, .rwb, true, 1, 1, 2500, "ExposureScans", "scan"⟩,
  ⟨0x7000, 0x1, 5, 15, 1, .bool, .wo, false, 0, 0, 1, "TrigNow", ""⟩,
  ⟨0x7000, 0x1, 5, 16, 1, .bool, .rwb, true, 0, 0, 1, "StrobeEnable", ""⟩,
  ⟨0x7000, 0x1, 5, 17, 1, .u32, .ro, false, 0, 0, 4294967295, "FramesGood", ""⟩,
  ⟨0x7000, 0x1, 5, 18, 1, .u32, .ro, false, 0, 0, 4294967295, "FramesBad", ""⟩,
  ⟨0x7000, 0x1, 5, 19, 1, .u32, .ro, false, 0, 0, 4294967295, "DiscardedPackets", ""⟩,
  ⟨0x7000, 0x1, 5, 20, 1, .u32, .ro, false, 0, 0, 4294967295, "TrigMissCount", ""⟩,
  ⟨0x7000, 0x1, 5, 21, 1, .u64, .ro, false, 0, 0, 18446744073709551615, "RingBase", ""⟩,
  ⟨0x7000, 0x1, 5, 22, 1, .u8, .ro, false, 255, 0, 255, "LastSlot", ""⟩,
  ⟨0x7100, 0x1, 8, 1, 1, .u8, .rwb, true, 0, 0, 32, "Source", ""⟩,
  ⟨0x7100, 0x1, 8, 2, 1, .u8, .rwb, true, 0, 0, 3, "Format", ""⟩,
  ⟨0x7100, 0x1, 8, 3, 1, .u16, .rwb, true, 0, 0, 65535, "SrcX", "pixel"⟩,
  ⟨0x7100, 0x1, 8, 4, 1, .u16, .rwb, true, 0, 0, 65535, "SrcY", "pixel"⟩,
  ⟨0x7100, 0x1, 8, 5, 1, .u16, .rwb, true, 64, 1, 16384, "SrcWidth", "pixel"⟩,
  ⟨0x7100, 0x1, 8, 6, 1, .u16, .rwb, true, 64, 1, 16384, "SrcHeight", "pixel"⟩,
  ⟨0x7100, 0x1, 8, 7, 1, .u16, .rwb, true, 0, 0, 65535, "DstX", "pixel"⟩,
  ⟨0x7100, 0x1, 8, 8, 1, .u16, .rwb, true, 0, 0, 65535, "DstY", "pixel"⟩,
  ⟨0x7100, 0x1, 8, 9, 1, .u16, .rwb, true, 64, 1, 16384, "DstWidth", "pixel"⟩,
  ⟨0x7100, 0x1, 8, 10, 1, .u16, .rwb, true, 64, 1, 16384, "DstHeight", "pixel"⟩,
  ⟨0x7100, 0x1, 8, 11, 1, .u8, .rwb, true, 255, 0, 255, "Alpha", "1/255"⟩,
  ⟨0x7100, 0x1, 8, 12, 1, .u8, .rwb, true, 1, 1, 255, "SourceDivider", "frame"⟩,
  ⟨0x7100, 0x1, 8, 13, 1, .u8, .rwb, true, 3, 1, 255, "StaleLimit", "check"⟩,
  ⟨0x7100, 0x1, 8, 14, 1, .bool, .rwb, true, 0, 0, 1, "PaletteEnable", ""⟩,
  ⟨0x7100, 0x1, 8, 15, 1, .u64, .rwb, true, 0, 0, 18446744073709551615, "SourceAddress", ""⟩,
  ⟨0x7100, 0x1, 8, 16, 1, .u32, .rwb, true, 256, 0, 4294967295, "SourceStride", "byte"⟩,
  ⟨0x7100, 0x1, 8, 17, 1, .bool, .wo, false, 0, 0, 1, "PlaneFlip", ""⟩]

def entriesImaging2 : List Entry := [
  ⟨0x7100, 0x1, 8, 18, 1, .u8, .wo, false, 0, 1, 1, "PlaneCommit", ""⟩,
  ⟨0x7100, 0x1, 8, 19, 1, .u16, .ro, false, 0, 0, 65535, "PlaneCommitStatus", ""⟩,
  ⟨0x7100, 0x1, 8, 20, 1, .u8, .ro, false, 0, 0, 255, "PlaneStatus", ""⟩,
  ⟨0x7100, 0x1, 8, 21, 1, .u32, .ro, false, 0, 0, 4294967295, "StaleFrames", ""⟩,
  ⟨0x7180, 0x1, 8, 1, 1, .dom, .rwb, true, 0, 1024, 1024, "Palette", ""⟩,
  ⟨0x71C0, 0x1, 8, 1, 1, .dom, .rwb, true, 0, 1024, 1024, "HCoeff", "Q2.14"⟩,
  ⟨0x71C0, 0x1, 8, 2, 1, .dom, .rwb, true, 0, 512, 512, "VCoeff", "Q2.14"⟩,
  ⟨0x7200, 0x1, 1, 1, 1, .u16, .rwb, true, 1920, 640, 3840, "OutWidth", "pixel"⟩,
  ⟨0x7200, 0x1, 1, 2, 1, .u16, .rwb, true, 1080, 480, 2160, "OutHeight", "line"⟩,
  ⟨0x7200, 0x1, 1, 3, 1, .u16, .rwb, true, 2200, 0, 65535, "OutHTotal", "pixel"⟩,
  ⟨0x7200, 0x1, 1, 4, 1, .u16, .rwb, true, 1125, 0, 65535, "OutVTotal", "line"⟩,
  ⟨0x7200, 0x1, 1, 5, 1, .u32, .rwb, true, 148500, 0, 4294967295, "OutPixelClock", "kHz"⟩,
  ⟨0x7200, 0x1, 1, 6, 1, .u8, .wo, false, 0, 1, 1, "OutCommit", ""⟩,
  ⟨0x7200, 0x1, 1, 7, 1, .u16, .ro, false, 0, 0, 65535, "OutCommitStatus", ""⟩,
  ⟨0x7200, 0x1, 1, 8, 1, .u32, .rwb, true, 0, 0, 4294967295, "Background", ""⟩,
  ⟨0x7200, 0x1, 1, 9, 1, .u8, .rwb, true, 4, 2, 16, "OutRingSlots", ""⟩,
  ⟨0x7200, 0x1, 1, 10, 1, .u64, .ro, false, 0, 0, 18446744073709551615, "OutFrameCount", ""⟩,
  ⟨0x7200, 0x1, 1, 11, 1, .u32, .ro, false, 0, 0, 4294967295, "OutFramesBad", ""⟩,
  ⟨0x7200, 0x1, 1, 12, 1, .bool, .wo, false, 0, 0, 1, "Reflatten", ""⟩,
  ⟨0x7200, 0x1, 1, 13, 1, .u32, .ro, false, 0, 0, 4294967295, "FlattenGeneration", ""⟩,
  ⟨0x7210, 0x1, 1, 1, 1, .bool, .rw, true, 1, 0, 1, "DpEnable", ""⟩,
  ⟨0x7210, 0x1, 1, 2, 1, .u8, .ro, false, 0, 0, 255, "DpStatus", ""⟩,
  ⟨0x7210, 0x1, 1, 3, 1, .u8, .ro, false, 0, 0, 255, "DpLanes", "lane"⟩,
  ⟨0x7210, 0x1, 1, 4, 1, .u8, .ro, false, 0, 0, 255, "DpRate", ""⟩,
  ⟨0x7210, 0x1, 1, 5, 1, .dom, .ro, false, 0, 0, 4294967295, "Edid", ""⟩,
  ⟨0x7800, 0x1, 1, 1, 1, .u8, .rw, true, 0, 0, 2, "IllumMode", ""⟩,
  ⟨0x7800, 0x1, 1, 2, 1, .i16, .rwb, true, 2500, (-32768), 32767, "TRef", "0.01 °C"⟩,
  ⟨0x7801, 0x1, 1, 1, 4, .u16, .rwb, true, 350, 10, 1000, "ColumnCurrent", "mA"⟩,
  ⟨0x7802, 0x1, 1, 1, 4, .i16, .rwb, true, 0, (-500), 500, "TempCoeff", "0.01 %/K"⟩,
  ⟨0x7810, 0x1, 8, 1, 4, .u16, .rw, true, 0, 0, 4095, "Duty", "1/4,096"⟩,
  ⟨0x7810, 0x1, 8, 5, 4, .u16, .rw, true, 0, 0, 4095, "StrobeDuty", "1/4,096"⟩,
  ⟨0x7820, 0x1, 8, 1, 1, .i16, .ro, false, 0, (-32768), 32767, "PetalTemperature", "0.01 °C"⟩,
  ⟨0x7820, 0x1, 8, 2, 1, .bool, .ro, false, 0, 0, 1, "NtcValid", ""⟩,
  ⟨0x7820, 0x1, 8, 3, 1, .u16, .ro, false, 0, 0, 65535, "StringOff", ""⟩,
  ⟨0x7830, 0x1, 8, 1, 12, .u16, .rws, true, 32768, 16384, 65535, "BinFactor", "1/32,768"⟩]

/-- Entries of 0x7xxx. -/
def entriesImaging : List Entry := entriesImaging1 ++ entriesImaging2

def entriesTime1 : List Entry := [
  ⟨0x8000, 0x1, 1, 1, 1, .u8, .ro, false, 0, 0, 255, "TimeStatus", ""⟩,
  ⟨0x8000, 0x1, 1, 2, 1, .dom, .ro, false, 0, 0, 4294967295, "DeviceTime", ""⟩,
  ⟨0x8000, 0x1, 1, 3, 1, .dom, .wo, false, 0, 12, 12, "SetTime", ""⟩,
  ⟨0x8000, 0x1, 1, 4, 1, .i32, .ro, false, 0, (-2147483648), 2147483647, "OffsetFromMaster", "ns"⟩,
  ⟨0x8000, 0x1, 1, 5, 1, .u32, .ro, false, 0, 0, 4294967295, "MeanPathDelay", "ns"⟩,
  ⟨0x8000, 0x1, 1, 6, 1, .i32, .ro, false, 0, (-2147483648), 2147483647, "RateAdjust", "ppb"⟩,
  ⟨0x8000, 0x1, 1, 7, 1, .u32, .rwb, true, 1000, 100, 1000000000, "StepThreshold", "ns"⟩,
  ⟨0x8000, 0x1, 1, 8, 1, .u16, .rwb, true, 100, 1, 500, "SlewLimit", "ppm"⟩,
  ⟨0x8000, 0x1, 1, 9, 1, .u16, .rwb, true, 100, 10, 10000, "LockThreshold", "ns"⟩,
  ⟨0x8000, 0x1, 1, 10, 1, .u16, .rwb, true, 3000, 100, 60000, "SyncLossTimeout", "ms"⟩,
  ⟨0x8000, 0x1, 1, 11, 1, .u32, .ro, false, 0, 0, 4294967295, "StepCount", ""⟩,
  ⟨0x8000, 0x1, 1, 12, 1, .i16, .ro, false, 0, (-32768), 32767, "UtcOffset", "s"⟩,
  ⟨0x8000, 0x1, 1, 13, 1, .dom, .ro, false, 0, 0, 4294967295, "TickAnchor", ""⟩,
  ⟨0x8000, 0x1, 1, 14, 1, .i32, .ro, false, 0, (-2147483648), 2147483647, "TickRate", "ppb"⟩,
  ⟨0x8001, 0x1, 1, 1, 1, .u8, .rwb, true, 2, 0, 3, "ClockRole", ""⟩,
  ⟨0x8001, 0x1, 1, 2, 1, .u8, .rwb, true, 0, 0, 127, "DomainNumber", ""⟩,
  ⟨0x8001, 0x1, 1, 3, 1, .u8, .rwb, true, 128, 0, 255, "Priority1", ""⟩,
  ⟨0x8001, 0x1, 1, 4, 1, .u8, .rwb, true, 128, 0, 255, "Priority2", ""⟩,
  ⟨0x8001, 0x1, 1, 5, 1, .bool, .rwb, true, 1, 0, 1, "SlaveOnly", ""⟩,
  ⟨0x8001, 0x1, 1, 6, 1, .u8, .rwb, true, 0, 0, 2, "OcPort", ""⟩,
  ⟨0x8001, 0x1, 1, 7, 1, .u64, .ro, false, 0, 0, 18446744073709551615, "GrandmasterIdentity", ""⟩,
  ⟨0x8001, 0x1, 1, 8, 1, .u16, .ro, false, 0, 0, 65535, "StepsRemoved", ""⟩,
  ⟨0x8001, 0x1, 1, 9, 1, .u32, .ro, false, 0, 0, 4294967295, "PtpDiscardCount", ""⟩,
  ⟨0x8010, 0x1, 2, 1, 1, .bool, .rwb, true, 1, 0, 1, "PortEnable", ""⟩,
  ⟨0x8012, 0x1, 1, 1, 1, .bool, .rwb, true, 0, 0, 1, "PortEnable", ""⟩,
  ⟨0x8010, 0x1, 3, 2, 1, .u8, .rwb, true, 2, 1, 2, "DelayMechanism", ""⟩,
  ⟨0x8010, 0x1, 3, 3, 1, .u8, .rwb, true, 0, 0, 2, "Transport", ""⟩,
  ⟨0x8010, 0x1, 3, 4, 1, .u8, .ro, false, 3, 0, 255, "PortState", ""⟩,
  ⟨0x8010, 0x1, 3, 5, 1, .i16, .rwb, true, (-3), (-7), 1, "LogSyncInterval", "log2 s"⟩,
  ⟨0x8010, 0x1, 3, 6, 1, .i16, .rwb, true, 0, (-3), 4, "LogAnnounceInterval", "log2 s"⟩,
  ⟨0x8010, 0x1, 3, 7, 1, .u8, .rwb, true, 3, 2, 10, "AnnounceReceiptTimeout", "interval"⟩,
  ⟨0x8010, 0x1, 3, 8, 1, .i16, .rwb, true, 0, (-7), 5, "LogMinPdelayReqInterval", "log2 s"⟩,
  ⟨0x8010, 0x1, 2, 9, 1, .u16, .rwb, true, 112, 0, 2000, "TxLatency", "ns"⟩,
  ⟨0x8012, 0x1, 1, 9, 1, .u16, .rwb, true, 24, 0, 2000, "TxLatency", "ns"⟩,
  ⟨0x8010, 0x1, 2, 10, 1, .u16, .rwb, true, 236, 0, 2000, "RxLatency", "ns"⟩,
  ⟨0x8012, 0x1, 1, 10, 1, .u16, .rwb, true, 31, 0, 2000, "RxLatency", "ns"⟩,
  ⟨0x8010, 0x1, 3, 11, 1, .i32, .rwb, true, 0, (-2147483648), 2147483647, "DelayAsymmetry", "ns"⟩,
  ⟨0x8010, 0x1, 3, 12, 1, .u32, .ro, false, 0, 0, 4294967295, "MeanLinkDelay", "ns"⟩,
  ⟨0x8020, 0x1, 1, 1, 1, .u8, .rw, true, 1, 0, 2, "PpsMode", ""⟩,
  ⟨0x8020, 0x1, 1, 2, 1, .u16, .rw, true, 100, 1, 500, "PpsWidth", "ms"⟩]

def entriesTime2 : List Entry := [
  ⟨0x8021, 0x1, 2, 1, 1, .u8, .rw, true, 1, 1, 3, "LatchEdge", ""⟩,
  ⟨0x8021, 0x1, 2, 2, 1, .dom, .ro, false, 0, 0, 4294967295, "LatchData", ""⟩,
  ⟨0x8021, 0x1, 2, 3, 1, .u32, .ro, false, 0, 0, 4294967295, "LatchOverflow", ""⟩]

/-- Entries of 0x8xxx. -/
def entriesTime : List Entry := entriesTime1 ++ entriesTime2

def entriesSupply1 : List Entry := [
  ⟨0x9000, 0x1, 1, 1, 1, .u16, .ro, false, 0, 0, 65535, "InputVoltageA", "mV"⟩,
  ⟨0x9000, 0x1, 1, 2, 1, .u16, .ro, false, 0, 0, 65535, "InputVoltageB", "mV"⟩,
  ⟨0x9000, 0x1, 1, 3, 1, .u16, .ro, false, 0, 0, 65535, "HoldupRail", "mV"⟩,
  ⟨0x9000, 0x1, 1, 4, 1, .u32, .ro, false, 0, 0, 4294967295, "InputPower", "mW"⟩,
  ⟨0x9000, 0x1, 1, 5, 1, .u8, .ro, false, 0, 0, 255, "SupplyStatus", ""⟩,
  ⟨0x9000, 0x1, 1, 6, 1, .u32, .ro, false, 0, 0, 4294967295, "PfWarnCount", ""⟩,
  ⟨0x9000, 0x1, 1, 7, 1, .u32, .ro, false, 0, 0, 4294967295, "HoldupCount", ""⟩,
  ⟨0x9000, 0x1, 1, 8, 1, .u32, .ro, false, 0, 0, 4294967295, "LastHoldupWindow", "µs"⟩,
  ⟨0x9010, 0x1, 1, 1, 19, .i16, .ro, false, 0, (-32768), 32767, "SensorTemperature", "0.01 °C"⟩,
  ⟨0x9011, 0x1, 1, 1, 1, .u32, .ro, false, 0, 0, 4294967295, "ExcludedSensors", ""⟩,
  ⟨0x9011, 0x1, 1, 2, 1, .i16, .ro, false, 0, (-32768), 32767, "MaxJunction", "0.01 °C"⟩,
  ⟨0x9011, 0x1, 1, 3, 1, .u8, .ro, false, 0, 0, 255, "ThermalLevel", ""⟩,
  ⟨0x9011, 0x1, 1, 4, 1, .u16, .ro, false, 10000, 0, 65535, "RoundPeriod", "µs"⟩,
  ⟨0x9011, 0x1, 1, 5, 1, .u32, .ro, false, 0, 0, 4294967295, "ThrottleTime", "ms"⟩,
  ⟨0x9011, 0x1, 1, 6, 1, .u32, .ro, false, 0, 0, 4294967295, "ThermalOffCount", ""⟩,
  ⟨0x9012, 0x1, 1, 1, 1, .u16, .rwb, true, 10, 1, 600, "Stage2Delay", "s"⟩,
  ⟨0x9012, 0x1, 1, 2, 1, .u16, .rwb, true, 2000, 0, 60000, "ThrottleDwell", "ms"⟩,
  ⟨0x9012, 0x1, 1, 3, 1, .u32, .rwb, true, 30000, 0, 600000, "ThrottleDwellMax", "ms"⟩,
  ⟨0x9020, 0x1, 1, 1, 1, .u8, .ro, false, 0, 0, 255, "ResetCause", ""⟩,
  ⟨0x9020, 0x1, 1, 2, 1, .u16, .ro, false, 0, 0, 65535, "VbatVoltage", "mV"⟩,
  ⟨0x9020, 0x1, 1, 3, 1, .bool, .ro, false, 0, 0, 1, "VbatLow", ""⟩,
  ⟨0x9020, 0x1, 1, 4, 1, .u16, .ro, false, 0, 0, 65535, "ReadyTime", "ms"⟩,
  ⟨0x9030, 0x1, 1, 1, 1, .u16, .ro, false, 0, 0, 65535, "VioVoltage", "mV"⟩,
  ⟨0x9030, 0x1, 1, 2, 1, .u32, .ro, false, 0, 0, 4294967295, "OutputOverload", ""⟩,
  ⟨0x9030, 0x1, 1, 3, 1, .bool, .ro, false, 0, 0, 1, "VioGood", ""⟩]

/-- Entries of 0x9xxx. -/
def entriesSupply : List Entry := entriesSupply1

def entriesSecurity1 : List Entry := [
  ⟨0xA000, 0x1, 1, 1, 1, .bool, .rw, false, 0, 0, 1, "CertifiedMode", ""⟩,
  ⟨0xA000, 0x1, 1, 2, 1, .bool, .ro, false, 0, 0, 1, "CertConformant", ""⟩,
  ⟨0xA000, 0x1, 1, 3, 1, .u8, .ro, false, 63, 0, 255, "UnmetConditions", ""⟩,
  ⟨0xA001, 0x1, 1, 1, 1, .bool, .rw, false, 1, 0, 1, "PskEnable", ""⟩,
  ⟨0xA001, 0x1, 1, 2, 1, .bool, .ro, false, 1, 0, 1, "CommissioningActive", ""⟩,
  ⟨0xA001, 0x1, 1, 3, 1, .dom, .wo, false, 0, 32, 32, "DomainKey", ""⟩,
  ⟨0xA001, 0x1, 1, 4, 1, .bool, .ro, false, 0, 0, 1, "DomainKeySet", ""⟩,
  ⟨0xA001, 0x1, 1, 5, 1, .u64, .rw, false, 0, 0, 18446744073709551615, "VendorWindowEnd", "s"⟩,
  ⟨0xA001, 0x1, 1, 6, 1, .u32, .ro, false, 0, 0, 4294967295, "LockoutCount", ""⟩,
  ⟨0xA002, 0x1, 1, 1, 1, .dom, .ro, false, 0, 0, 4294967295, "OperationalCsr", ""⟩,
  ⟨0xA002, 0x1, 1, 2, 1, .dom, .rw, false, 0, 0, 2048, "OperationalCert", ""⟩,
  ⟨0xA002, 0x1, 1, 3, 1, .dom, .ro, false, 0, 0, 4294967295, "PackageKey", ""⟩,
  ⟨0xA002, 0x1, 1, 4, 1, .dom, .ro, false, 0, 0, 4294967295, "FactoryCert", ""⟩,
  ⟨0xA003, 0x1, 1, 1, 4, .dom, .rw, false, 0, 0, 2048, "TrustedCa", ""⟩,
  ⟨0xA004, 0x1, 1, 1, 8, .dom, .rw, false, 0, 0, 97, "SignerKey", ""⟩,
  ⟨0xA010, 0x1, 1, 1, 1, .dom, .wo, false, 0, 0, 4294967295, "PackageData", ""⟩,
  ⟨0xA010, 0x1, 1, 2, 1, .u16, .ro, false, 0, 0, 65535, "PackageStatus", ""⟩,
  ⟨0xA010, 0x1, 1, 3, 1, .u8, .ro, false, 0, 0, 255, "PackageState", ""⟩,
  ⟨0xA010, 0x1, 1, 4, 1, .dom, .ro, false, 0, 0, 4294967295, "PackageIdentity", ""⟩,
  ⟨0xA020, 0x1, 1, 1, 1, .u8, .rw, false, 0, 0, 3, "TamperEnable", ""⟩,
  ⟨0xA020, 0x1, 1, 2, 1, .u8, .ro, false, 0, 0, 255, "TamperStatus", ""⟩,
  ⟨0xA020, 0x1, 1, 3, 1, .bool, .wo, false, 0, 0, 1, "TamperAck", ""⟩,
  ⟨0xA030, 0x1, 1, 1, 1, .dom, .wo, false, 0, 0, 4294967295, "FirmwareImage", ""⟩,
  ⟨0xA030, 0x1, 1, 2, 1, .u16, .ro, false, 0, 0, 65535, "FirmwareStatus", ""⟩,
  ⟨0xA030, 0x1, 1, 3, 1, .bool, .wo, false, 0, 0, 1, "FirmwareActivate", ""⟩,
  ⟨0xA030, 0x1, 1, 4, 1, .u8, .ro, false, 0, 0, 255, "ActiveSlot", ""⟩,
  ⟨0xA030, 0x1, 1, 5, 1, .u32, .ro, false, 0, 0, 4294967295, "RollbackFloor", ""⟩,
  ⟨0xA030, 0x1, 1, 6, 1, .bool, .wo, false, 0, 0, 1, "SelfTestRun", ""⟩,
  ⟨0xA100, 0x1, 32, 1, 1, .str, .rw, false, 0, 1, 32, "Name", ""⟩,
  ⟨0xA100, 0x1, 32, 2, 1, .u8, .rw, false, 1, 1, 4, "Role", ""⟩,
  ⟨0xA100, 0x1, 32, 3, 1, .dom, .rw, false, 0, 0, 48, "Fingerprint", ""⟩,
  ⟨0xA100, 0x1, 32, 4, 1, .dom, .wo, false, 0, 32, 32, "Psk", ""⟩,
  ⟨0xA100, 0x1, 32, 5, 1, .bool, .rw, false, 0, 0, 1, "Enabled", ""⟩,
  ⟨0xA100, 0x1, 32, 6, 1, .u64, .rw, false, 0, 0, 18446744073709551615, "ExpiresAt", "s"⟩,
  ⟨0xA100, 0x1, 32, 7, 1, .u32, .ro, false, 0, 0, 4294967295, "FailCount", ""⟩]

/-- Entries of 0xAxxx. -/
def entriesSecurity : List Entry := entriesSecurity1

def entriesRecorder1 : List Entry := [
  ⟨0xB000, 0x1, 1, 1, 1, .u64, .ro, false, 0, 0, 18446744073709551615, "NewestSequence", ""⟩,
  ⟨0xB000, 0x1, 1, 2, 1, .u64, .ro, false, 0, 0, 18446744073709551615, "OldestSequence", ""⟩,
  ⟨0xB000, 0x1, 1, 3, 1, .u16, .ro, false, 1024, 0, 65535, "RingBlocks", "block"⟩,
  ⟨0xB000, 0x1, 1, 4, 1, .u32, .ro, false, 0, 0, 4294967295, "StagingUsed", "byte"⟩,
  ⟨0xB000, 0x1, 1, 5, 1, .u32, .ro, false, 0, 0, 4294967295, "OperatingHours", "0.1 h"⟩,
  ⟨0xB000, 0x1, 1, 6, 1, .u32, .ro, false, 0, 0, 4294967295, "PowerCycles", ""⟩,
  ⟨0xB000, 0x1, 1, 7, 1, .u16, .rwb, true, 1000, 10, 10000, "FlushInterval", "ms"⟩,
  ⟨0xB000, 0x1, 1, 8, 1, .u16, .rwb, true, 16, 1, 256, "MirrorSize", "MiB"⟩,
  ⟨0xB000, 0x1, 1, 9, 1, .bool, .rw, true, 0, 0, 1, "CompatHeader", ""⟩,
  ⟨0xB000, 0x1, 1, 10, 1, .u64, .rw, false, 0, 0, 18446744073709551615, "AuditAckSequence", ""⟩,
  ⟨0xB000, 0x1, 1, 11, 1, .u32, .ro, false, 0, 0, 4294967295, "AuditLostCount", ""⟩,
  ⟨0xB010, 0x1, 1, 1, 1, .u64, .rw, false, 0, 0, 18446744073709551615, "SnapFrom", ""⟩,
  ⟨0xB010, 0x1, 1, 2, 1, .u64, .rw, false, 18446744073709551615, 0, 18446744073709551615, "SnapTo", ""⟩,
  ⟨0xB010, 0x1, 1, 3, 1, .u16, .rw, false, 65534, 0, 65535, "SnapAreaMask", ""⟩,
  ⟨0xB010, 0x1, 1, 4, 1, .u8, .wo, false, 0, 0, 1, "SnapOpen", ""⟩,
  ⟨0xB010, 0x1, 1, 5, 1, .u8, .ro, false, 0, 0, 255, "SnapStatus", ""⟩,
  ⟨0xB010, 0x1, 1, 6, 1, .dom, .ro, false, 0, 0, 4294967295, "SnapData", ""⟩,
  ⟨0xB010, 0x1, 1, 7, 1, .u64, .ro, false, 0, 0, 18446744073709551615, "SnapFirst", ""⟩,
  ⟨0xB010, 0x1, 1, 8, 1, .u64, .ro, false, 0, 0, 18446744073709551615, "SnapLast", ""⟩,
  ⟨0xB010, 0x1, 1, 9, 1, .u16, .rwb, true, 60, 1, 600, "SnapHold", "s"⟩]

/-- Entries of 0xBxxx. -/
def entriesRecorder : List Entry := entriesRecorder1

def entriesMemory1 : List Entry := [
  ⟨0xC100, 0x1, 1, 1, 1, .u64, .ro, false, 0, 0, 18446744073709551615, "TlbMissCount", ""⟩,
  ⟨0xC100, 0x1, 1, 2, 1, .u64, .ro, false, 0, 0, 18446744073709551615, "SharedTlbMissCount", ""⟩,
  ⟨0xC100, 0x1, 1, 3, 1, .u32, .ro, false, 0, 0, 4294967295, "InvalidateCount", ""⟩,
  ⟨0xC000, 0x1, 1, 1, 1, .u8, .rwb, true, 3, 0, 3, "AddressMapOrder", ""⟩,
  ⟨0xC000, 0x1, 1, 2, 1, .u8, .ro, false, 3, 0, 255, "ActiveMapOrder", ""⟩,
  ⟨0xC000, 0x1, 1, 3, 1, .u16, .rwb, true, 24, 1, 168, "ScrubPeriod", "h"⟩,
  ⟨0xC000, 0x1, 1, 4, 1, .u16, .rwb, true, 2000, 500, 8000, "NeighbourThreshold", "activate"⟩,
  ⟨0xC000, 0x1, 1, 5, 1, .u8, .rwb, true, 1, 1, 2, "BlastRadius", "row"⟩,
  ⟨0xC000, 0x1, 1, 6, 1, .u16, .rwb, true, 16, 2, 1024, "DeviceMarkThreshold", "line"⟩,
  ⟨0xC000, 0x1, 1, 7, 1, .u32, .rwb, true, 2000, 200, 100000, "AgeLimit", "ns"⟩,
  ⟨0xC000, 0x1, 1, 8, 1, .u32, .ro, false, 0, 0, 4294967295, "ScrubProgress", "1/1,000,000"⟩,
  ⟨0xC000, 0x1, 1, 9, 1, .u32, .ro, false, 0, 0, 4294967295, "Throughput", "MB/s"⟩,
  ⟨0xC010, 0x1, 2, 1, 1, .u8, .ro, false, 0, 0, 255, "TrainStatus", ""⟩,
  ⟨0xC010, 0x1, 2, 2, 1, .u16, .ro, false, 0, 0, 65535, "ReadMargin", "ps"⟩,
  ⟨0xC010, 0x1, 2, 3, 1, .u16, .ro, false, 0, 0, 65535, "WriteMargin", "ps"⟩,
  ⟨0xC010, 0x1, 2, 4, 1, .u16, .ro, false, 7800, 0, 65535, "RefreshInterval", "ns"⟩,
  ⟨0xC010, 0x1, 2, 5, 1, .i16, .ro, false, 0, (-32768), 32767, "DeviceTemperature", "0.01 °C"⟩,
  ⟨0xC010, 0x1, 2, 6, 1, .u32, .ro, false, 0, 0, 4294967295, "CorrectedCount", ""⟩,
  ⟨0xC010, 0x1, 2, 7, 1, .u32, .ro, false, 0, 0, 4294967295, "UncorrectableCount", ""⟩,
  ⟨0xC010, 0x1, 2, 8, 1, .u8, .rws, false, 255, 0, 255, "MarkedDevice", ""⟩,
  ⟨0xC010, 0x1, 2, 9, 1, .u32, .ro, false, 0, 0, 4294967295, "NeighbourRefreshCount", ""⟩,
  ⟨0xC010, 0x1, 2, 10, 1, .u64, .ro, false, 0, 0, 18446744073709551615, "LastErrorAddress", ""⟩]

/-- Entries of 0xCxxx. -/
def entriesMemory : List Entry := entriesMemory1

def entriesCompression1 : List Entry := [
  ⟨0xD000, 0x1, 1, 1, 1, .dom, .wo, false, 0, 48, 48, "CompressSubmit", ""⟩,
  ⟨0xD000, 0x1, 1, 2, 1, .u8, .ro, false, 0, 0, 255, "QueuedJobs", ""⟩,
  ⟨0xD000, 0x1, 1, 3, 1, .u32, .ro, false, 0, 0, 4294967295, "LastTag", ""⟩,
  ⟨0xD000, 0x1, 1, 4, 1, .u16, .ro, false, 0, 0, 65535, "LastStatus", ""⟩,
  ⟨0xD000, 0x1, 1, 5, 1, .u32, .wo, false, 0, 0, 4294967295, "CompressCancel", ""⟩,
  ⟨0xD001, 0x1, 1, 1, 1, .u64, .ro, false, 0, 0, 18446744073709551615, "BytesIn", "byte"⟩,
  ⟨0xD001, 0x1, 1, 2, 1, .u64, .ro, false, 0, 0, 18446744073709551615, "BytesOut", "byte"⟩,
  ⟨0xD001, 0x1, 1, 3, 1, .u32, .ro, false, 0, 0, 4294967295, "FallbackCount", ""⟩,
  ⟨0xD001, 0x1, 1, 4, 1, .u32, .ro, false, 0, 0, 4294967295, "SelfCheckFailCount", ""⟩,
  ⟨0xD002, 0x1, 1, 1, 1, .u8, .ro, false, 3, 0, 255, "InflaterStatus", ""⟩,
  ⟨0xD010, 0x1, 2, 1, 1, .u64, .ro, false, 0, 0, 18446744073709551615, "InflatedBlocks", ""⟩,
  ⟨0xD010, 0x1, 2, 2, 1, .u32, .ro, false, 0, 0, 4294967295, "InflateFailures", ""⟩]

/-- Entries of 0xDxxx. -/
def entriesCompression : List Entry := entriesCompression1

def entriesCalibration1 : List Entry := [
  ⟨0xE000, 0x1, 1, 1, 1, .u16, .rws, false, 0, 0, 65535, "CalCommand", ""⟩,
  ⟨0xE000, 0x1, 1, 2, 1, .u8, .ro, false, 0, 0, 255, "CalState", ""⟩,
  ⟨0xE000, 0x1, 1, 3, 1, .u16, .ro, false, 0, 0, 65535, "CalProgress", "1/1,000"⟩,
  ⟨0xE000, 0x1, 1, 4, 1, .u16, .ro, false, 0, 0, 65535, "CalResult", ""⟩,
  ⟨0xE000, 0x1, 1, 5, 1, .u8, .rws, false, 0, 1, 2, "CalAccept", ""⟩,
  ⟨0xE001, 0x1, 1, 1, 1, .u16, .ro, false, 0, 0, 65535, "PosRms", "0.1 µm"⟩,
  ⟨0xE001, 0x1, 1, 2, 1, .u16, .ro, false, 0, 0, 65535, "PosMax", "0.1 µm"⟩,
  ⟨0xE001, 0x1, 1, 3, 1, .u16, .ro, false, 0, 0, 65535, "FocusRms", "µm"⟩,
  ⟨0xE001, 0x1, 1, 4, 1, .u16, .ro, false, 0, 0, 65535, "SeamMax", "0.1 µm"⟩,
  ⟨0xE001, 0x1, 1, 5, 1, .u16, .ro, false, 0, 0, 65535, "PowerResidual", "0.01 %"⟩,
  ⟨0xE001, 0x1, 1, 6, 1, .u16, .ro, false, 0, 0, 65535, "OscResidual", "ppb"⟩,
  ⟨0xE003, 0x1, 1, 1, 1, .u16, .rws, true, 50, 1, 1000, "PosRmsLimit", "0.1 µm"⟩,
  ⟨0xE003, 0x1, 1, 2, 1, .u16, .rws, true, 150, 1, 5000, "PosMaxLimit", "0.1 µm"⟩,
  ⟨0xE003, 0x1, 1, 3, 1, .u16, .rws, true, 20, 1, 1000, "FocusRmsLimit", "µm"⟩,
  ⟨0xE003, 0x1, 1, 4, 1, .u16, .rws, true, 100, 1, 5000, "SeamLimit", "0.1 µm"⟩,
  ⟨0xE003, 0x1, 1, 5, 1, .u16, .rws, true, 200, 1, 2000, "PowerResidualLimit", "0.01 %"⟩,
  ⟨0xE003, 0x1, 1, 6, 1, .u8, .rws, true, 26, 1, 64, "EyeMin", "1/64 UI"⟩,
  ⟨0xE003, 0x1, 1, 7, 1, .u16, .rws, true, 300, 1, 5000, "OscResidualLimit", "ppb"⟩,
  ⟨0xE010, 0x1, 1, 1, 1, .dom, .rws, false, 0, 0, 49152, "FiducialList", ""⟩,
  ⟨0xE010, 0x1, 1, 2, 1, .u16, .ro, false, 0, 0, 65535, "FiducialCount", ""⟩,
  ⟨0xE010, 0x1, 1, 3, 1, .i16, .rws, false, 2000, (-32768), 32767, "PlateTemperature", "0.01 °C"⟩,
  ⟨0xE010, 0x1, 1, 4, 1, .i16, .rws, false, 2000, (-32768), 32767, "CertTemperature", "0.01 °C"⟩,
  ⟨0xE010, 0x1, 1, 5, 1, .u32, .rws, false, 11500, 0, 100000, "PlateCte", "ppb/K"⟩,
  ⟨0xE010, 0x1, 1, 6, 1, .u32, .rws, true, 10000, 100, 1000000, "CamPixelSize", "nm"⟩,
  ⟨0xE011, 0x1, 1, 1, 1, .u32, .rws, false, 0, 0, 4294967295, "PowerReading", "mW"⟩,
  ⟨0xE011, 0x1, 1, 2, 1, .i32, .rws, true, 0, (-2147483648), 2147483647, "MeterPositionX", "25 nm"⟩,
  ⟨0xE011, 0x1, 1, 3, 1, .i32, .rws, true, 0, (-2147483648), 2147483647, "MeterPositionY", "25 nm"⟩,
  ⟨0xE011, 0x1, 1, 4, 1, .u8, .rws, true, 5, 2, 11, "PowerLevels", ""⟩,
  ⟨0xE011, 0x1, 1, 5, 1, .u16, .rws, true, 60, 5, 600, "ReadingTimeout", "s"⟩,
  ⟨0xE012, 0x1, 1, 1, 1, .u16, .rws, true, 32768, 1, 65535, "PdTarget", ""⟩,
  ⟨0xE012, 0x1, 1, 2, 1, .u16, .rws, true, 19661, 0, 65535, "PdRefPower", "1/65,535"⟩,
  ⟨0xE012, 0x1, 1, 3, 1, .i32, .rws, true, 0, (-2147483648), 2147483647, "PdPositionX", "25 nm"⟩,
  ⟨0xE012, 0x1, 1, 4, 1, .i32, .rws, true, 0, (-2147483648), 2147483647, "PdPositionY", "25 nm"⟩,
  ⟨0xE013, 0x1, 1, 1, 1, .i16, .rws, false, 2500, (-2000), 7000, "RefTemperature", "0.01 °C"⟩,
  ⟨0xE020, 0x1, 12, 1, 1, .u8, .ro, false, 0, 0, 255, "EyeWidth", "1/64 UI"⟩,
  ⟨0xE020, 0x1, 12, 2, 1, .u8, .ro, false, 0, 0, 255, "SamplePhase", "1/64 UI"⟩,
  ⟨0xE030, 0x1, 13, 1, 1, .u8, .ro, false, 0, 0, 255, "RecordStatus", ""⟩,
  ⟨0xE030, 0x1, 13, 2, 1, .u32, .ro, false, 0, 0, 4294967295, "Generation", ""⟩,
  ⟨0xE030, 0x1, 13, 3, 1, .dom, .rws, false, 0, 0, 199792, "RecordData", ""⟩,
  ⟨0xE030, 0x1, 13, 4, 1, .bool, .ro, false, 0, 0, 1, "IdentityMatch", ""⟩]

/-- Entries of 0xExxx. -/
def entriesCalibration : List Entry := entriesCalibration1

def entriesDiagnostics1 : List Entry := [
  ⟨0xF010, 0x1, 1, 1, 11, .u32, .ro, false, 0, 0, 4294967295, "QueueWaitCount", ""⟩,
  ⟨0xF011, 0x1, 1, 1, 1, .u32, .ro, false, 0, 0, 4294967295, "EventLostCount", ""⟩,
  ⟨0xF011, 0x1, 1, 2, 1, .u32, .ro, false, 0, 0, 4294967295, "ImageLostCount", ""⟩,
  ⟨0xF020, 0x1, 1, 1, 1, .u8, .ro, false, 0, 0, 255, "ClockStatus", ""⟩,
  ⟨0xF020, 0x1, 1, 2, 1, .i32, .ro, false, 0, (-2147483648), 2147483647, "OscTrim", "ppb"⟩]

/-- Entries of 0xFxxx. -/
def entriesDiagnostics : List Entry := entriesDiagnostics1

/-- The rows among which an index is looked up. -/
def entryPart (index : Nat) : List Entry :=
  match index / 0x1000 with
  | 0x1 => entriesComm
  | 0x2 => entriesBuild
  | 0x3 => entriesEngines
  | 0x4 => entriesPorts
  | 0x5 => entriesMelt
  | 0x6 => entriesAxes
  | 0x7 => entriesImaging
  | 0x8 => entriesTime
  | 0x9 => entriesSupply
  | 0xA => entriesSecurity
  | 0xB => entriesRecorder
  | 0xC => entriesMemory
  | 0xD => entriesCompression
  | 0xE => entriesCalibration
  | 0xF => entriesDiagnostics
  | _ => []

/-- Every row. -/
def entryTable : List Entry :=
  entriesComm ++ entriesBuild ++ entriesEngines ++ entriesPorts ++ entriesMelt ++ entriesAxes ++ entriesImaging ++ entriesTime ++ entriesSupply ++ entriesSecurity ++ entriesRecorder ++ entriesMemory ++ entriesCompression ++ entriesCalibration ++ entriesDiagnostics

/-- The row covers (index, sub). -/
def Entry.covers (d : Entry) (index sub : Nat) : Bool :=
  d.index ≤ index && (index - d.index) % d.step == 0 && (index - d.index) / d.step < d.count
    && d.sub ≤ sub && sub < d.sub + d.subs

/-- The index of the row exists, whatever the sub-index (R276). -/
def Entry.coversIndex (d : Entry) (index : Nat) : Bool :=
  d.index ≤ index && (index - d.index) % d.step == 0 && (index - d.index) / d.step < d.count

/-- The row of an entry. -/
def findEntry (index sub : Nat) : Option Entry :=
  (entryPart index).find? fun d => d.covers index sub

/-- The default of an entry: 0 where the table gives none. -/
def defaultOf (key : Nat) : Int :=
  match findEntry (key / 256) (key % 256) with
  | some d => d.dflt
  | none => 0

end Sys2Proof.Machine
end

