-- ==== Sys2Proof/Machine/StIo.lean ====
section
/-!
DEFINITION. The state of laser ports and scanner links, melt-pool sensing, Clover lanes, axes, cameras,
compositor and illumination (chapters 3, 5, 6, 10 and 11).
-/
namespace Sys2Proof.Machine

/-- Scanner link states (0x4009.01). -/
inductive LinkState where
  | off | idle | align | identify | up
  deriving DecidableEq, Repr

/-- An anomaly run or an anomaly in progress (R133); the rise of its exposure unit. -/
structure AnomRun where
  low : Bool := true
  rise8 : Int := 0
  length : Nat := 0
  posX : Int := 0
  posY : Int := 0
  endX : Int := 0
  endY : Int := 0
  extreme : Nat := 0
  active : Bool := false
  /-- of the sample that came last before the run was an anomaly: labels of its MARK, set-point and band of its slot -/
  partId : Nat := 0
  featureTag : Nat := 0
  setPoint : Nat := 0
  bandLow : Nat := 0
  bandHigh : Nat := 65535
  deriving DecidableEq, Repr

/-- One sample pair in Q_MPS (R117). -/
structure SamplePair where
  valid : Bool := false
  rawA : Nat := 0
  rawB : Nat := 0
  pdsat : Bool := false
  /-- sample instant in eighth-ticks (R115) -/
  at8 : Int := 0
  deriving DecidableEq, Repr

/-- Laser port p and scanner link p. -/
structure Laser where
  available : Bool := false
  /-- it has become unavailable and not available since (R85) -/
  lost : Bool := false
  readyHigh : Bool := false
  /-- ALARM_L is high: no alarm; PortStatus reads 0x00 at reset (Table 3.10) -/
  alarmHigh : Bool := true
  emitEn : Bool := false
  emitReadback : Bool := false
  emitMismatch : Nat := 0
  withdrawn : Bool := false
  /-- tick at which the last obstacle to availability ended -/
  clearSince : Nat := 0
  overloadOff : Bool := false
  lgate : Bool := false
  lpwr : Nat := 0
  lpwrSeq : Nat := 0
  lpwrFrame : Nat := 0
  /-- number of the last power slot sent -/
  slotNo : Int := -1
  fallbackAt : Option Nat := none
  fallbackSince : Nat := 0
  link : LinkState := .off
  linkTimer : Option Nat := none
  retryTimer : Option Nat := none
  mismatch : Bool := false
  upstreamGood : Nat := 0
  upstreamBad : Nat := 0
  rxerrRun : Nat := 0
  hfaultRun : Nat := 0
  hfaultCode : Nat := 0
  hfaultSince : Nat := 0
  hfaultAt : Option Nat := none
  /-- the values last sampled in upstream frames -/
  actX : Int := 0
  actY : Int := 0
  tempSum : Int := 0
  tempCount : Nat := 0
  /-- T_head as a fraction of 0.01 °C, the millisecond being averaged, and the last arrival (R69) -/
  tHeadNum : Int := 0
  tHeadDen : Nat := 1
  tempMs : Nat := 0
  tempAt : Nat := 0
  tempStale : Bool := false
  /-- auxiliary request in progress: address, write, deadline, retried -/
  auxBusy : Option (Nat × Bool × Nat) := none
  auxRetried : Bool := false
  /-- request to be put into the next frame: operation, address, data -/
  auxOut : Option (Nat × Nat × Nat) := none
  /-- registers 0x0000–0x0007 read so far (R76 step 5) -/
  regs : List Nat := []
  auxResponse : Nat := 0
  roundTrip : Nat := 0
  loopReady : Bool := false
  /-- RESYNC is sent (R76 step 7) -/
  resync : Bool := true
  /-- downstream frame being sent, its SEQ and bed position -/
  frame : Nat := 0
  txSeq : Nat := 0
  frameX : Int := 0
  frameY : Int := 0
  /-- Q_MPS: its first sixteen pairs; later ones wait for a credit (Table 1.3) -/
  mpsQ : List SamplePair := []
  /-- since when which engine has been routed to the laser, newest first; 255 none (R119) -/
  routes : List (Nat × Nat) := []
  /-- Q_PWR: number of the slot and the value for it; the first four are in the queue, a later one waits at the
  lane for a credit (R14, R16, Table 1.3) -/
  pwrQ : List (Int × Nat) := []
  anom : Option AnomRun := none
  signal : Nat := 0
  deriving DecidableEq, Repr

/-- Clover effective and programmed modes (0x5800.01). -/
inductive LoopMode where
  | open | ff | closed
  deriving DecidableEq, Repr

/-- The state of one chain stage (R141, Table 6.2), at accumulator precision (Q10.30). -/
structure StageState where
  x1 : Int := 0
  x2 : Int := 0
  y1 : Int := 0
  y2 : Int := 0
  integ : Int := 0
  deriv : Int := 0
  out : Int := 0
  deriving DecidableEq, Repr

/-- A stage in force: opcode, sources, P1–P16. -/
structure Stage where
  op : Nat := 0
  srcA : Nat := 0
  srcB : Nat := 0
  p : List Int := []
  deriving DecidableEq, Repr

/-- Test-signal injection (R150). -/
structure Injection where
  running : Bool := false
  runs : Nat := 0
  phase : Nat := 0
  prbs : Nat := 0
  /-- entry tick of the module state in which it was started -/
  since : Nat := 0
  deriving DecidableEq, Repr

/-- A sample that has entered a lane (R117): valid, saturated, signal, number of the slot it serves, and
whether the gate was on when it was taken. -/
structure LaneSample where
  valid : Bool := false
  sat : Bool := false
  signal : Nat := 0
  slot : Int := 0
  gateOn : Bool := false
  deriving DecidableEq, Repr

/-- One Clover lane. -/
structure Lane where
  /-- the chain in force; the default is one PID stage with limits ±8,192 (Table 6.3) -/
  chain : List Stage :=
    { op := 3, p := [0, 0, 0, 0, 0, -8192, 8192, -8192, 8192, 0, 0, 0, 0, 0, 0, 0] } :: List.replicate 7 {}
  handoverStage : Nat := 0
  states : List StageState := []
  /-- a committed chain that takes effect at the next period start, with its hand-over stage (R142) -/
  next : Option (List Stage × Nat) := none
  programmed : LoopMode := .open
  effective : LoopMode := .open
  setPoint : Nat := 0
  bandLow : Nat := 0
  bandHigh : Nat := 65535
  c : Int := 0
  b : Int := 0
  clamped : Int := 0
  slewing : Bool := false
  sample : Option LaneSample := none
  /-- Q_LOOK, and the look-ahead line: update and result (R130) -/
  lookQ : List (Nat × Option Nat) := []
  line : List (Nat × Option Nat) := []
  lost : Bool := false
  invalidRun : Nat := 0
  rangeRun : Nat := 0
  freezeRun : Nat := 0
  freezeRef : Nat := 0
  goodRun : Nat := 0
  y : Int := 0
  r : Int := 0
  inj : Injection := {}
  /-- general lane profile: start tick and the set-point at the start -/
  profStart : Option Nat := none
  profFrom : Int := 0
  output : Int := 0
  /-- the analogue input sampled last, Q15 (R149) -/
  input : Int := 0
  /-- tick of the last run (R138), and the slot that the last run served (R116) -/
  ranAt : Option Nat := none
  lastSlot : Int := 0
  lastP : Nat := 0
  feedF : Int := 0
  deriving DecidableEq, Repr

/-- The capture unit (R151). -/
structure Capture where
  state : Nat := 0
  count : Nat := 0
  skip : Nat := 0
  data : List Int := []
  deriving DecidableEq, Repr

/-- Axis states (Table 11.1). -/
inductive AxisState where
  | disabled | enabling | standstill | moving | homing | stopping | fault | slaved
  deriving DecidableEq, Repr

/-- What the profile generator is doing. -/
inductive Motive where
  | rest
  | target (p : Int)
  | jog (v : Int)
  | halt
  deriving DecidableEq, Repr

/-- One axis channel. Positions carry 16 fractional bits, velocities 16 and accelerations 16. -/
structure Axis where
  st : AxisState := .disabled
  flags : Nat := 0
  pos : Int := 0
  vel : Int := 0
  acc : Int := 0
  motive : Motive := .rest
  stopFault : Bool := false
  stopCause : Nat := 0
  /-- limits in force: count/s, count/s², 1,000 count/s³ -/
  limV : Nat := 100000
  limA : Nat := 1000000
  limJ : Nat := 50000
  /-- profile planned from a tick: state there (2^−16), then durations (2^−40 s) and jerks (2^−16 count/s³) -/
  plan : List (Nat × Int) := []
  planAt : Nat := 0
  planP : Int := 0
  planV : Int := 0
  planA : Int := 0
  /-- the profile is planned anew at the next period boundary -/
  replan : Bool := false
  deferredA : Option Nat := none
  /-- limits of the present stop, count/s² and 1,000 count/s³: a write during it waits for the next (R241) -/
  stopA : Nat := 2000000
  stopJ : Nat := 100000
  /-- velocity in which the plan of a jog ends: its speed within VelLimit -/
  planW : Int := 0
  enaOn : Bool := false
  brakeOn : Bool := true
  brakeAt : Option Nat := none
  doneAt : Option Nat := none
  enaOffAt : Option Nat := none
  /-- coordinated move: mask, start, displacement, and the path parameter of the leader -/
  coordMask : Nat := 0
  coordFrom : Int := 0
  coordDelta : Int := 0
  coordLen : Nat := 0
  actual : Int := 0
  inPosSince : Option Nat := none
  /-- encoder -/
  lineA : Bool := false
  lineB : Bool := false
  encCount : Int := 0
  encRev : Int := 0
  /-- count of the last sin/cos sample; its samples since the last period were invalid -/
  encRaw : Int := 0
  sampleBad : Bool := false
  edgeSeen : Bool := false
  /-- ActualPos less the scaled EncPosition (SET_POSITION, homing) -/
  actOffset : Int := 0
  periodQuadrant : Nat := 0
  edgesAt : List (Int × Nat) := []
  edgeTimer : Option Nat := none
  ampRun : Nat := 0
  invalidRun : Nat := 0
  freezeRun : Nat := 0
  indexRef : Option Int := none
  illegalAt : Option Nat := none
  illegalSince : Nat := 0
  speed : Int := 0
  latch : List Int := []
  /-- switches LIM_P, LIM_N, HOME: debounced level, CHATTER, raw transition ticks -/
  swLevel : BitVec 3 := 0
  swChatter : BitVec 3 := 0
  swRaw : BitVec 3 := 0
  swTrans : List (Nat × Nat) := []
  /-- tick and position at which the raw level of each switch last changed -/
  swSince : Vector Nat 3 := Vector.replicate 3 0
  swPos : Vector Int 3 := Vector.replicate 3 0
  /-- homing: mode, pass, deadline -/
  homePass : Nat := 0
  homeMode : Nat := 0
  homeTimer : Option Nat := none
  homeReleased : Bool := false
  /-- external step inputs: outstanding counts × 2^16, rate per tick, last edge tick, interval -/
  outstanding : Int := 0
  emitFrom : Int := 0
  lastStep : Option Nat := none
  stepInterval : Nat := 0
  stallRun : Nat := 0
  loadAngle : Int := 0
  laneOut : Int := 0
  profileEnded : Bool := true
  layerParity : Nat := 0
  /-- output position at the last boundary (2^−16), STEP edges of the present period (tick, DIR), the last edge -/
  outPos : Int := 0
  stepEdges : List (Int × Bool) := []
  lastStepTick : Int := -1000
  dirOut : Bool := false
  phaseA : Int := 0
  phaseB : Int := 0
  /-- one more than the tick of the last period boundary, and the bus voltage measured then (R236, R246) -/
  periodAt : Nat := 0
  vbus : Nat := 0
  encPwrOff : Bool := false
  brakeOverload : Bool := false
  deriving DecidableEq, Repr

/-- The melt-pool tag of a frame at its exposure midpoint (R119). -/
structure CamTag where
  laser : Nat := 255
  engine : Nat := 255
  x : Int := 0
  y : Int := 0
  gate : Bool := false
  partId : Nat := 0
  featureTag : Nat := 0
  deriving DecidableEq, Repr

/-- A camera frame, being received or in a ring slot (R212 to R214): pixels as they lie in the slot. -/
structure CamFrame where
  number : Nat := 0
  lines : Nat := 0
  slot : Nat := 0
  width : Nat := 0
  height : Nat := 0
  dataType : Nat := 0x2B
  truncated : Bool := false
  crcError : Bool := false
  strobed : Bool := false
  deadline : Nat := 0
  tag : Option CamTag := none
  seconds : Nat := 0
  nanos : Nat := 0
  layer : Nat := 0
  bad : Bool := false
  pixels : Bytes := []
  deriving DecidableEq, Repr

/-- Camera port configuration in force (R213). -/
structure CamConfig where
  enable : Bool := false
  lanes : Nat := 2
  laneRate : Nat := 1000
  dataType : Nat := 0x2B
  vc : Nat := 0
  width : Nat := 1920
  height : Nat := 1080
  slots : Nat := 3
  timeout : Nat := 1000
  deriving DecidableEq, Repr

/-- One camera port. -/
structure Cam where
  cfg : CamConfig := {}
  staged : Option CamConfig := none
  frame : Option CamFrame := none
  /-- the line-group under way found no credit -/
  groupLost : Bool := false
  frameNumber : Nat := 0
  /-- slot and finished frame -/
  ring : List (Nat × CamFrame) := []
  trig : Bool := false
  trigUntil : Option Nat := none
  request : Bool := false
  /-- the exposure under way, or the last one whose frame has not started, is a strobe exposure (R233) -/
  strobe : Bool := false
  strobeFrame : Bool := false
  scanCount : Nat := 0
  imgCredits : Nat := 2
  lostGroups : Nat := 0
  deriving DecidableEq, Repr

/-- A plane configuration (Table 10.4, 0x7100.01–0x7100.10). -/
structure PlaneConfig where
  source : Nat := 0
  format : Nat := 0
  srcX : Nat := 0
  srcY : Nat := 0
  srcW : Nat := 64
  srcH : Nat := 64
  dstX : Nat := 0
  dstY : Nat := 0
  dstW : Nat := 64
  dstH : Nat := 64
  alpha : Nat := 255
  divider : Nat := 1
  staleLimit : Nat := 3
  palette : Bool := false
  address : Nat := 0
  stride : Nat := 256
  deriving DecidableEq, Repr

/-- A source picture taken for scaling: kind 0 MONO8, 1 MONO16, 2 INDEX8, 3 RGBA32; bits that a MONO16 value has
below its top 8 significant ones; line pitch in bytes; camera and slot it locks, and FrameNumber (R216, R220). -/
structure SrcImage where
  width : Nat := 0
  height : Nat := 0
  kind : Nat := 0
  drop : Nat := 0
  stride : Nat := 0
  data : Bytes := []
  lock : Option (Nat × Nat) := none
  frame : Nat := 0
  deriving DecidableEq, Repr

/-- A scaled buffer: RGBA pixels, the camera FrameNumber, and whether a line-group was lost (R217, R225). -/
structure ScaledBuf where
  width : Nat := 0
  height : Nat := 0
  pixels : Bytes := []
  frame : Nat := 0
  bad : Bool := false
  deriving DecidableEq, Repr

/-- One compositor plane. -/
structure Plane where
  cfg : PlaneConfig := {}
  next : Option PlaneConfig := none
  /-- boundaries since the configuration took effect -/
  since : Nat := 0
  scaling : Option SrcImage := none
  /-- the buffer completed last, whether it was since the last checked boundary, and the buffer in use -/
  fresh : Option ScaledBuf := none
  isNew : Bool := false
  shown : Option ScaledBuf := none
  ready : Bool := false
  stale : Bool := false
  transparent : Bool := false
  staleRun : Nat := 0
  /-- the read of its memory buffer waits at a translation fault (R165) -/
  held : Bool := false
  deriving DecidableEq, Repr

/-- A picture placed in the output: plane, position, plane alpha. -/
structure Placed where
  plane : Nat := 0
  x : Nat := 0
  y : Nat := 0
  alpha : Nat := 255
  buf : ScaledBuf := {}
  deriving DecidableEq, Repr

/-- An output frame with its metadata (Table 10.2). -/
structure OutFrame where
  stale : Nat := 0
  transparent : Nat := 0
  badPlanes : Nat := 0
  flattenNew : Bool := false
  resumed : Bool := false
  bad : Bool := false
  number : Nat := 0
  seconds : Nat := 0
  nanos : Nat := 0
  layer : Nat := 0
  sources : List Nat := []
  pixels : Bytes := []
  deriving DecidableEq, Repr

/-- The output, flatten cache, write-back and DisplayPort. The flatten cache holds each region as the static
pictures flattened into it. -/
structure Compositor where
  width : Nat := 1920
  height : Nat := 1080
  hTotal : Nat := 2200
  vTotal : Nat := 1125
  clock : Nat := 148500
  frameNumber : Nat := 0
  /-- tick at which the flatten under way began -/
  flattenRun : Option Nat := none
  /-- a flatten completed and not yet in use: its duration in ms -/
  flattenReady : Option Nat := none
  backBelow : List Placed := []
  backAbove : List Placed := []
  below : List Placed := []
  above : List Placed := []
  cacheError : Bool := false
  writebackHeld : Bool := false
  /-- the next frame is not composed (R225, throttle stage 1) -/
  skip : Bool := false
  /-- frames written, newest first -/
  ring : List OutFrame := []
  hpd : Bool := false
  retryAt : Option Nat := none
  deriving DecidableEq, Repr

/-- One petal (R228–R233). -/
structure Petal where
  ntcValid : Bool := false
  ntcFailed : Bool := false
  badRun : Nat := 0
  goodRun : Nat := 0
  readings : List Int := []
  stringOff : BitVec 12 := 0
  /-- effective duty of each string, updated at PWM cycle boundaries -/
  duty : List Nat := []
  strobe : List Nat := []
  failRun : List Nat := []
  deriving DecidableEq, Repr

end Sys2Proof.Machine
end

