-- ==== Sys2Proof/Machine/StSys.lean ====
section
/-!
DEFINITION. The state of everything around the lasers: event records, sessions, time, working memory,
translation, DMA, compression, supply, thermal, calibration, packages, security, and what survives a
reset (chapters 7, 9, 12 to 19).
-/
namespace Sys2Proof.Machine

/-- Module states (Table 1.5). -/
inductive ModState where
  | off | reset | boot | selftest | ready | armed | building | paused | holdup | safe | service
  | thermalOff
  deriving DecidableEq, Repr

/-- Causes that take the module to SAFE (Table 1.8). -/
inductive SafeCause where
  | safetyOk | selftest | noProfile | outsideContinuity | tamper | crypto | inflaters | mirror
  | secondSensor | layerAxis (a : AxisId) | recovery
  deriving DecidableEq, Repr

/-- Roles of a session (Table 18.2). -/
inductive Role where
  | operator | integrator | service | vendor
  deriving DecidableEq, Repr

/-- An event record before it is numbered (R330). -/
structure EvtRec where
  type : Nat := 0
  source : Nat := 255
  lost : Nat := 0
  body : List Int := []
  deriving DecidableEq, Repr

/-- A numbered record in staging, flash or mirror. -/
structure LogRec where
  sequence : Nat := 0
  length : Nat := 0
  audit : Bool := false
  recovered : Bool := false
  evt : EvtRec := {}
  /-- tick at which it was staged -/
  stagedAt : Nat := 0
  deriving DecidableEq, Repr

/-- One erase block of the flash ring (R334). -/
structure FlashBlock where
  /-- its place in the ring, or 1,024 and above for a block of the reserve -/
  slot : Nat := 0
  records : List LogRec := []
  pages : Nat := 0
  programFails : Nat := 0
  deriving DecidableEq, Repr

/-- One cyclic subscription (R271). -/
structure Subscription where
  id : Nat := 0
  period : Nat := 1
  /-- index × 256 + sub of every entry, in order -/
  entries : List Nat := []
  /-- CycleCount of the next message, and the instant sent last -/
  count : Nat := 0
  last : Nat := 0
  deriving DecidableEq, Repr

/-- A snapshot of the event ring (R338). -/
structure Snapshot where
  fromSeq : Nat := 0
  toSeq : Nat := 0xFFFFFFFFFFFFFFFF
  areaMask : Nat := 0xFFFE
  status : Nat := 0
  first : Nat := 0
  last : Nat := 0
  openedAt : Nat := 0
  /-- TotalLength of SnapData, fixed at the open (R339) -/
  total : Nat := 0
  deriving DecidableEq, Repr

/-- A DTLS session (R266, R267). -/
structure Session where
  peer : Nat := 0
  minor : Nat := 2
  role : Role := .operator
  account : Option (Fin 32) := none
  ip : Nat := 0
  /-- the session runs over the uplink interface, else over the ring (R261) -/
  uplink : Bool := false
  validityChecked : Bool := true
  lastRecord : Nat := 0
  /-- the last 64 answers: Sequence and message, newest first -/
  responses : List (Nat × Bytes) := []
  staged : List (Nat × Bytes) := []
  subs : List Subscription := []
  snap : Snapshot := {}
  sent : Nat := 0
  received : Nat := 0
  deriving DecidableEq, Repr

/-- A node heard on the domain (R272). -/
structure Node where
  id : Nat := 0
  minor : Nat := 0
  identity : Nat := 0
  heardAt : Nat := 0
  deriving DecidableEq, Repr

/-- A PTP port (R296). -/
structure PtpPort where
  /-- PortEnable and DelayMechanism in force (R296) -/
  enabled : Bool := false
  mechanism : Nat := 2
  state : Nat := 3
  receiptTimer : Option Nat := none
  meanLinkDelay : Nat := 0
  deriving DecidableEq, Repr

/-- An anchor (R291): tick × 8, seconds, nanoseconds. -/
structure Anchor where
  tick8 : Nat := 0
  seconds : Nat := 0
  nanos : Nat := 0
  deriving DecidableEq, Repr

/-- Device time (R287–R302). -/
structure TimeSt where
  status : Nat := 0
  /-- 2^−32 ns since the epoch; 0 while INVALID -/
  now : Nat := 0
  /-- rate adjustment, 2^−32 ns per TIME_CLK cycle -/
  adj : Int := 0
  /-- the adjustment from the next common edge on (R288) -/
  adjNext : Int := 0
  /-- the PTP port entries in force (R296) -/
  portDict : List (Nat × Int) := []
  /-- two-step Syncs forwarded: source, sequenceId, and what their Follow_Up gets (R298) -/
  twoSteps : List (Nat × Nat × Int) := []
  integral : Int := 0
  anchor : Option Anchor := none
  prevAnchor : Option Anchor := none
  rho : Int := 0
  goodSyncs : Nat := 0
  firstOffset : Bool := true
  offset : Int := 0
  pathDelay : Nat := 0
  /-- origin, with its corrections, and ingress of the last Sync at the MDI, 2^−16 ns (R294, R297) -/
  lastSync : Int × Int := (0, 0)
  syncTimer : Option Nat := none
  /-- rate adjustments while LOCKED, newest first, for the 60 s mean -/
  history : List (Nat × Int) := []
  grandmaster : Nat := 0
  stepsRemoved : Nat := 0
  utcOffset : Int := 0
  ports : Vector PtpPort 3 := Vector.replicate 3 {}
  forwarded : List (Nat × Nat × Nat × Nat) := []
  ppsHigh : Bool := false
  ppsUntil : Option Nat := none
  skipPulse : Bool := false
  latches : List (List (Nat × Bool)) := [[], []]
  latchOverflowAt : List (Option Nat) := [none, none]
  /-- edges lost since the last record of each latch input -/
  latchLost : List Nat := [0, 0]
  /-- second whose boundary came last; tick of the last tick-only anchor (R332) -/
  lastSecond : Nat := 0
  tickAnchorAt : Nat := 0
  scheduled : Option Nat := none
  layerStartAt : Option Nat := none
  role : Nat := 0
  deriving DecidableEq, Repr

/-- A translation fault record (Table 7.11). -/
structure FaultRec where
  space : Nat := 0
  master : Nat := 0
  inst : Nat := 255
  write : Bool := false
  level : Nat := 0
  cause : Nat := 0
  address : Nat := 0
  tick : Nat := 0
  progress : Nat := 0
  number : Nat := 0
  deadline : Nat := 0
  deriving DecidableEq, Repr

/-- A DMA descriptor (Table 7.7). -/
structure DmaJob where
  source : Nat := 0
  destination : Nat := 0
  length : Nat := 0
  op : Nat := 1
  space : Nat := 0
  status : Nat := 0
  progress : Nat := 0
  tag : Nat := 0
  held : Bool := false
  deriving DecidableEq, Repr

/-- A TLB entry: address space, virtual page, physical page, permissions. -/
structure TlbEntry where
  space : Nat := 0
  vpage : Nat := 0
  ppage : Nat := 0
  r : Bool := false
  w : Bool := false
  prot : Bool := false
  deriving DecidableEq, Repr

/-- A queued memory request (R315): class 0 RT to 3 LOW, place in the list of Table 14.4, arrival tick, and whether
age has raised it. -/
structure MemReq where
  who : Requester := .unit .dma
  cls : Nat := 3
  order : Nat := 0
  address : Nat := 0
  write : Option Bytes := none
  errors : List (Fin 72 × Byte) := []
  arrived : Nat := 0
  raised : Bool := false
  deriving DecidableEq, Repr

/-- One DRAM channel (R304–R316). -/
structure Dram where
  /-- TrainStatus: 0 untrained, 1 trained, 2 failed -/
  trained : Nat := 0
  interval : Nat := 7800
  temp : Int := 0
  marked : Option (Fin 18) := none
  /-- lines with corrected errors: device, line, tick -/
  errLines : List (Nat × Nat × Nat) := []
  /-- activate counters: bank, row, count -/
  counters : List (Nat × Nat × Nat) := []
  openRows : List (Nat × Nat) := []
  /-- refreshes since the window began, refreshes due and not issued, tick up to which intervals are counted, and
  the tick at which a refresh under way ends -/
  refreshes : Nat := 0
  postponed : Int := 0
  lastRefresh : Nat := 0
  busyUntil : Nat := 0
  zqAt : Nat := 0
  queue : List MemReq := []
  /-- status and octets of the request served last -/
  response : Nat × Bytes := (0, [])
  correctedAt : Option Nat := none
  correctedSince : Nat := 0
  /-- scrub: next line of the channel, corrected and uncorrectable lines of the pass -/
  scrubLine : Nat := 0
  scrubCorrected : Nat := 0
  scrubBad : Nat := 0
  /-- tick of the last line scrubbed (R313) -/
  scrubAt : Nat := 0
  selfRefresh : Bool := false
  /-- bytes served in the present and in the last whole second -/
  bytesNow : Nat := 0
  bytesLast : Nat := 0
  deriving DecidableEq, Repr

/-- A compression job (Table 15.1). -/
structure CompJob where
  source : Nat := 0
  destination : Nat := 0
  sourceLength : Nat := 0
  destLength : Nat := 0
  blockSize : Nat := 4096
  mode : Nat := 0
  effort : Nat := 1
  space : Nat := 0
  progress : Nat := 0
  outBytes : Nat := 0
  tag : Nat := 0
  held : Bool := false
  deriving DecidableEq, Repr

/-- An inflater (R319, R320). -/
structure Inflater where
  inService : Bool := true
  failRun : Nat := 0
  lastFailed : Nat := 0
  /-- the block that failed here and waits for the other inflater's verdict -/
  pendingVerdict : Bool := false
  deriving DecidableEq, Repr

/-- A calibration record (Tables 9.1 to 9.3). The map lists the nodes that are not 0. -/
structure CalRec where
  generation : Nat := 0
  headIdentity : Nat := 0
  calTime : Nat := 0
  w : Nat := 0
  f : Nat := 0
  tCal : Int := 0
  gx : Int := 0
  gy : Int := 0
  ox : Int := 0
  oy : Int := 0
  oz : Int := 0
  offsetA : Nat := 0
  gainA : Nat := 4096
  offsetB : Nat := 0
  gainB : Nat := 4096
  gateAlign : Nat := 0
  fullScaleFit : Nat := 0
  posRms : Nat := 0
  posMax : Nat := 0
  focusRms : Nat := 0
  seamMax : Nat := 0
  powerResidual : Nat := 0
  /-- i, j, ΔX, ΔY, ΔZ of each node that is not 0 -/
  map : List (Nat × Nat × Int × Int × Int) := []
  oscTable : List Int := []
  sensorOffset : List Int := []
  adcRefOffset : Int := 0
  adcRefTempco : Int := 0
  phaseCode : List Byte := []
  provisional : Bool := false
  factory : Bool := false
  deriving DecidableEq, Repr

/-- One accepted drift point of a head (R202). -/
structure DriftPoint where
  laser : Nat := 0
  tHead : Int := 0
  gx : Int := 0
  gy : Int := 0
  ox : Int := 0
  oy : Int := 0
  oz : Int := 0
  deriving DecidableEq, Repr

/-- A calibration procedure (Table 9.4). -/
structure CalSt where
  procedure : Nat := 0
  laser : Nat := 255
  state : Nat := 0
  result : Nat := 0
  level : Nat := 0
  readings : List Nat := []
  readingTimer : Option Nat := none
  pending : List (Nat × CalRec) := []
  /-- records being committed: index, procedure (0 an import, 0xFE a trim), new contents -/
  committing : List (Nat × Nat × CalRec) := []
  /-- cause for which the procedure must end without results (R195) -/
  abort : Option Nat := none
  headMapAccepted : Vector Bool 12 := Vector.replicate 12 false
  driftPoints : List DriftPoint := []
  /-- the points as they stand once the pending one is accepted -/
  driftPending : List DriftPoint := []
  /-- tick before which the procedure cannot have ended (R201, R205 to R207) -/
  doneAt : Nat := 0
  deriving DecidableEq, Repr

/-- The resume record (R347). -/
structure ResumeRec where
  cause : Nat := 0
  layer : Nat := 0
  paused : Bool := false
  digest : Bytes := []
  pCrc : Nat := 0
  /-- for each calibration index: 0 none in force, 1 a working record, 2 a provisional one, 3 the factory copy; Generation -/
  cal : List (Nat × Nat) := []
  contexts : List (Nat × Context) := []
  checkpoints : List (Nat × Checkpoint) := []
  spilledAbsent : List Nat := []
  deriving DecidableEq, Repr

/-- A stored profile (R282): entry key and value, DOM entries apart. -/
structure Profile where
  generation : Nat := 0
  values : List (Nat × Int) := []
  blobs : List (Nat × Bytes) := []
  deriving DecidableEq, Repr

/-- An account (R362). -/
structure Account where
  name : Bytes := []
  role : Nat := 1
  fingerprint : Bytes := []
  psk : Bytes := []
  enabled : Bool := false
  expiresAt : Nat := 0
  deriving DecidableEq, Repr

/-- A build package as loaded (Tables 18.3 and 18.4). -/
structure PkgSection where
  kind : Nat := 0
  space : Nat := 0
  length : Nat := 0
  va : Nat := 0
  offset : Nat := 0
  nonce : Bytes := []
  tag : Bytes := []
  entry : Bytes := []
  deriving DecidableEq, Repr

/-- A context table record (R366). -/
structure PkgContext where
  context : Nat := 0
  priority : Nat := 0
  space : Nat := 0
  homeEngine : Nat := 0
  listBase : Nat := 0
  deriving DecidableEq, Repr

structure Package where
  raw : Bytes := []
  minMinor : Nat := 0
  nodes : List Nat := []
  packageId : Bytes := []
  signerId : Bytes := []
  digest : Bytes := []
  ephemeral : Bytes := []
  sections : List PkgSection := []
  contexts : List PkgContext := []
  deriving DecidableEq, Repr

/-- Package loading (R368). -/
structure PkgSt where
  state : Nat := 0
  status : Nat := 0
  inForce : Option Package := none
  loading : Option Package := none
  received : Bytes := []
  loadingOwner : Nat := 255
  /-- physical bytes of the protected region: address and length of each placed section -/
  region : List (Nat × Nat) := []
  /-- decryption waits at a translation fault (Table 7.8) -/
  held : Bool := false
  deriving DecidableEq, Repr

/-- Supply and thermal state (chapter 17). -/
structure SupplySt where
  mvA : Nat := 0
  mvB : Nat := 0
  bankMv : Nat := 0
  goodA : Bool := false
  goodB : Bool := false
  pfWarn : Bool := false
  charged : Bool := false
  inputsCut : Bool := false
  holdupAt : Nat := 0
  shed : Bool := false
  railsOff : Bool := false
  mramStopped : Bool := false
  /-- what the resume copier is writing (R346, R347), and the reset that waits for it -/
  copierPending : Option ResumeRec := none
  resetHeld : Option Nat := none
  copierUntil : Option Nat := none
  temps : List Int := []
  excluded : BitVec 19 := 0
  badRun : List Nat := []
  maxJunction : Int := 0
  level : Nat := 0
  fastSince : Option Nat := none
  roundPeriod : Nat := 10000
  stage1At : Option Nat := none
  throttleSince : Option Nat := none
  vioMv : Nat := 0
  vioGood : Bool := false
  resetCause : Nat := 1
  oscTrim : Int := 0
  /-- tick of the last change of the trim (R11) -/
  trimAt : Option Nat := none
  trimLimit : Bool := false
  refPresent : Bool := true
  pllLocked : Bool := false
  bothCoresFailed : Bool := false
  /-- kind of the first fault absorbed since RESET (R185): 1 engine, 2 inflater, 3 memory device, 4 firmware cores, 5 supply
  input, 6 temperature sensor -/
  firstFault : Option Nat := none
  failedCores : Nat := 0
  deriving DecidableEq, Repr

/-- Volatile security state (R363, R371, R372). -/
structure SecSt where
  failures : List (Nat × Nat) := []
  lockouts : List (Nat × Nat) := []
  cryptoFailed : Bool := false
  cryptoPending : Bool := false
  zeroising : Option Nat := none
  tamperInputs : BitVec 2 := 0
  conformant : Bool := false
  unmet : Nat := 0x3F
  firmwareStatus : Nat := 0
  /-- slot of the running image -/
  slot : Nat := 0
  deriving DecidableEq, Repr

/-- What survives OFF, RESET and THERMAL_OFF: flash, MRAM, fuses, the Cowslip domain. -/
structure NonVol where
  -- event recorder
  staging : List LogRec := []
  ring : List FlashBlock := [{}]
  reserve : Nat := 8
  blocksInService : Nat := 1024
  deferred : List FlashBlock := []
  eraseDue : Bool := false
  newest : Nat := 0
  oldest : Nat := 0
  operatingHours : Nat := 0
  powerCycles : Nat := 0
  auditAck : Nat := 0
  auditLost : Nat := 0
  /-- ticks counted towards the next 0.1 h of OperatingHours (R332) -/
  hourTicks : Nat := 0
  -- resume
  resume : Option ResumeRec := none
  -- calibration copies A and B, factory module record
  copyA : List (Nat × CalRec) := []
  copyB : List (Nat × CalRec) := []
  /-- directory in MRAM: Generation and check word of each working copy A and B (R190) -/
  dirA : List (Nat × Nat × Nat) := []
  dirB : List (Nat × Nat × Nat) := []
  factory : CalRec := { factory := true }
  -- profiles: the valid copies A and B of each
  profileA : List (Nat × Profile) := []
  profileB : List (Nat × Profile) := []
  /-- their directory in MRAM: Generation and check word of each copy (R190, R282) -/
  profDirA : List (Nat × Nat × Nat) := []
  profDirB : List (Nat × Nat × Nat) := []
  nextProfile : Nat := 255
  -- counters in MRAM
  thermalOffCount : Nat := 0
  holdupCount : Nat := 0
  lastHoldupWindow : Nat := 0
  powerLossPos : Vector Int 4 := Vector.replicate 4 0
  marked : Vector (Option (Fin 18)) 2 := Vector.replicate 2 none
  mapOrder : Nat := 3
  mirrorSize : Nat := 16
  /-- recognised while BOOT and SELFTEST had still to take it further (R372) -/
  tamperPending : Bool := false
  /-- a tamper recognised without main power has still to be recorded (R372) -/
  tamperUnrecorded : Bool := false
  -- firmware
  slots : List FwImage := []
  activeSlot : Nat := 0
  trialSlot : Option Nat := none
  trialStarted : Bool := false
  rollbackFloor : Nat := 0
  floorRaises : Nat := 0
  stagedSlot : Option Nat := none
  -- security store
  accounts : Vector Account 32 := Vector.replicate 32 {}
  certifiedMode : Bool := false
  pskEnable : Bool := true
  commissioning : Bool := true
  domainKey : Option Bytes := none
  storeKey : Option Bytes := none
  operationalKey : Option Bytes := none
  packageKey : Option Bytes := none
  operationalCert : Bytes := []
  trustedCa : Vector Bytes 4 := Vector.replicate 4 []
  signerKeys : Vector Bytes 8 := Vector.replicate 8 []
  vendorWindowEnd : Nat := 0
  -- Cowslip domain
  tamperEnable : BitVec 2 := 0
  tamperLatched : Bool := false
  endCause : Nat := 1
  vbatMv : Nat := 0
  vbatLow : Bool := false
  -- package cache slot in force (flash)
  cache : Bytes := []
  deriving DecidableEq, Repr

/-- The layer under way and the build (R87, R187, R243). -/
structure LayerSt where
  number : Nat := 0
  running : Bool := false
  /-- no layer of the build has started since START (R302) -/
  first : Bool := false
  stage : Nat := 0
  moving : Bool := false
  coverageLost : Bool := false
  lostBlocks : List (Nat × Nat) := []
  pauseRequested : Bool := false
  pauseCause : Nat := 0
  /-- lasers named in a mask of the armed package (R83) -/
  emitMask : Nat := 0
  /-- the re-melt template of R134: its header and the bounding box of its offsets -/
  template : Option (BlockHeader × Rect) := none
  /-- end of the dwell that stage 2 adds, and the tick of the layer end (R353) -/
  dwellUntil : Nat := 0
  endTick : Nat := 0
  hostLossTimer : Option Nat := none
  deriving DecidableEq, Repr

/-- The spare channel (chapter 8). -/
structure SpareSt where
  standinFor : Option EngineId := none
  forTrim : Bool := false
  subState : EngState := .idle
  takeoverAt : Option Nat := none
  /-- self-check that failed, and the tick t_d (R174) -/
  check : Nat := 0
  failTick : Nat := 0
  heldX : Int := 0
  heldY : Int := 0
  restored : Option Checkpoint := none
  /-- last update for which look-ahead was requested at the takeover (R178) -/
  aheadTo : Nat := 0
  trimPending : Option EngineId := none
  trimming : Option EngineId := none
  trimDone : Bool := false
  /-- a fault of the crossbar or the hardware gate-off path, which the next layer start's test finds (R185) -/
  pathFault : Bool := false
  deriving DecidableEq, Repr

/-- The Heat Ledger (R120–R130): stored cells that are not 0, the tile cache, miss buffers. Where in working memory its tiles
lie the spec does not say, so the cells are a list of their own (row 22). -/
structure LedgerSt where
  cols : Nat := 8000
  rows : Nat := 6000
  /-- (row × 65,536 + column, cell word) of every cell not 0, rising -/
  cells : List (Nat × Nat) := []
  /-- tick at which ledger time was 0 (R122) -/
  zero : Nat := 0
  /-- tiles resident in the write-combining cache, 8,192 in each bank (R124) -/
  cached : List (Nat × Nat) := []
  /-- tiles whose fill, and tiles whose spill, is held by a fault: ti, tj -/
  heldFills : List (Nat × Nat) := []
  heldSpills : List (Nat × Nat) := []
  /-- deposits waiting in the miss buffers of the banks: ti, tj, deposit -/
  missQ : List (Nat × Nat × Deposit) := []
  dropAt : Option Nat := none
  dropSince : Nat := 0
  /-- ledger millisecond of the last sweep visit of each tile visited -/
  swept : List (Nat × Nat) := []
  deriving DecidableEq, Repr

end Sys2Proof.Machine
end

