-- ==== Sys2Proof/Machine/State.lean ====
section
/-!
DEFINITION. The state of the module, its faults and refusals, and the state after reset.
-/
namespace Sys2Proof.Machine

/-- The reasons a step can stop. -/
inductive Fault where
  /-- raised by MEMORY_REQUEST for an address outside the 16 GiB of R304, which does not exist: safe -/
  | noSuchAddress (address : Nat)
  deriving DecidableEq, Repr

/-- The reasons a command has no meaning. -/
inductive Refusal where
  /-- raised by an arm of exec that has no meaning yet: safe -/
  | notModelled (mnemonic : String)
  deriving DecidableEq, Repr

/-- The module. Numeric dictionary entries that no typed field holds live in `dict` under their number
(index × 256 + sub), octet strings in `blobs`; both list only what differs from the default of the entry
table, keys strictly rising. -/
structure State where
  /-- commands waiting, first in first out -/
  pending : List Instr := []
  /-- the model's own count of free values taken (row 3) -/
  free : Nat := 0
  /-- the tick counter (R10, R291) -/
  tick : Nat := 0
  /-- the rows of the present tick have been queued; its timeouts come next (R27) -/
  tickEnd : Bool := false
  modState : ModState := .reset
  prevState : ModState := .reset
  cause : Nat := 0
  entryTick : Nat := 0
  commandStatus : Nat := 0
  safeCauses : List SafeCause := []
  safetyOk : Bool := false
  /-- status answered to the last host access (R269) -/
  answer : Nat := 0
  /-- octets answered to the last host access, and datagrams and frames sent since reset, newest first -/
  answerData : Bytes := []
  sent : List (Nat × Bytes) := []
  dict : List (Nat × Int) := []
  blobs : List (Nat × Bytes) := []
  /-- the dictionary as it stood at the last ARM (R91) -/
  armDict : List (Nat × Int) := []
  layer : LayerSt := {}
  engines : Vector Engine 13 :=
    ((Vector.replicate 13 { } : Vector Engine 13).mapFinIdx fun i e _ =>
      if h : i < 12 then { e with routed := some ⟨i, h⟩ } else { e with st := .spare })
  contexts : List (Nat × Context) := []
  lasers : Vector Laser 12 := Vector.replicate 12 {}
  claims : List Claim := []
  /-- tick of the arbiter's last decision: it makes one in a tick (R99) -/
  decidedAt : Option Nat := none
  claimSerial : Nat := 0
  remainders : List Remainder := []
  tokens : Vector Token 64 := Vector.replicate 64 {}
  spare : SpareSt := {}
  ledger : LedgerSt := {}
  lanes : Vector Lane 20 := Vector.replicate 20 {}
  capture : Capture := {}
  /-- analogue outputs AOUT0–AOUT3, Q15 of 10 V (R149) -/
  aout : Vector Int 4 := Vector.replicate 4 0
  axes : Vector Axis 4 := Vector.replicate 4 {}
  cams : Vector Cam 5 := Vector.replicate 5 {}
  planes : Vector Plane 8 := Vector.replicate 8 {}
  comp : Compositor := {}
  petals : Vector Petal 8 := Vector.replicate 8 {}
  scanNumber : Nat := 0
  sessions : Vector (Option Session) 16 := Vector.replicate 16 none
  nodes : List Node := []
  /-- port A and B link, IPv4 addresses in force (R261), tick of the next ANNOUNCE, duplicate node last heard, last
  discard record and discards since -/
  ringUp : BitVec 2 := 0
  ringV4 : Nat := 0
  uplinkV4 : Nat := 0
  announceAt : Nat := 0
  duplicateAt : Option Nat := none
  discardAt : Option Nat := none
  discardSince : Nat := 0
  runningMinor : Nat := 2
  minorSetBy : Nat := 0
  profileBusy : Nat := 0
  profileTarget : Nat := 0
  /-- the last store or switch failed (0x1F00.05), and where the selection came from: 0 pins, 1 NextProfile -/
  profileFailed : Bool := false
  profileCause : Nat := 0
  activeProfile : Nat := 0xFE
  pinSelection : Nat := 0
  time : TimeSt := {}
  /-- working memory: bytes that are not 0, addresses rising (R306) -/
  mem : List Host.Cell := []
  /-- poisoned lines (R314) -/
  poisoned : List Nat := []
  tableBase : Vector Nat 64 := Vector.replicate 64 0
  spillBase : Vector Nat 64 := Vector.replicate 64 0
  tlb : List (Nat × TlbEntry) := []
  sharedTlb : List TlbEntry := []
  faults : List FaultRec := []
  /-- faults of masters that find the queue full, oldest first (R166) -/
  faultWait : List FaultRec := []
  lastFault : Option FaultRec := none
  dma : List DmaJob := []
  dram : Vector Dram 2 := Vector.replicate 2 {}
  fetched : List (EngineId × FetchItem × BlockHeader × Bytes) := []
  inflaters : Vector Inflater 2 := Vector.replicate 2 {}
  jobs : List CompJob := []
  /-- credits that came back in the present tick: queue number of Table 1.3 and its instance (R15) -/
  freed : List (Nat × Nat) := []
  evtQ : List EvtRec := []
  /-- records of areas that wait for a Q_EVT credit, oldest first (R14, R16) -/
  evtWait : List EvtRec := []
  evtLost : List (Nat × Nat) := []
  mirror : List LogRec := []
  mirrorNext : Nat := 0
  mirrorHeld : Bool := false
  cal : CalSt := {}
  records : Vector (Option CalRec) 13 := Vector.replicate 13 none
  pkg : PkgSt := {}
  supply : SupplySt := {}
  sec : SecSt := {}
  recovery : Bool := false
  resumeAvailable : Bool := false
  resumeArm : Bool := false
  overload : BitVec 20 := 0
  nv : NonVol := {}
  deriving DecidableEq, Repr

/-- The module right after reset: state RESET with the tick counter at 0 and every entry at the default
of its table; what R190, R282, R333 and R360 hold in flash and MRAM is empty on this first power-on
(row 2). -/
def State.reset : State := {}

end Sys2Proof.Machine
end

