-- ==== Sys2Proof/Machine/Ops.lean ====
section
/-!
DEFINITION. The named operations over the state: updates of one part, dictionary values, counters, event
records, free values, and the bytes of working memory.
-/
namespace Sys2Proof.Machine

/-- What a meaning answers. -/
abbrev Out := Host.Outcome State Fault Refusal

/-- One element of a vector changed. -/
def vmod {α : Type} {n : Nat} (v : Vector α n) (i : Fin n) (f : α → α) : Vector α n := v.set i (f v[i])

def State.modEngine (s : State) (e : EngineId) (f : Engine → Engine) : State :=
  { s with engines := vmod s.engines e f }
def State.modLaser (s : State) (p : LaserId) (f : Laser → Laser) : State :=
  { s with lasers := vmod s.lasers p f }
def State.modLane (s : State) (n : LaneId) (f : Lane → Lane) : State :=
  { s with lanes := vmod s.lanes n f }
def State.modAxis (s : State) (a : AxisId) (f : Axis → Axis) : State :=
  { s with axes := vmod s.axes a f }
def State.modCam (s : State) (c : CamId) (f : Cam → Cam) : State := { s with cams := vmod s.cams c f }
def State.modPlane (s : State) (k : PlaneId) (f : Plane → Plane) : State :=
  { s with planes := vmod s.planes k f }
def State.modPetal (s : State) (t : PetalId) (f : Petal → Petal) : State :=
  { s with petals := vmod s.petals t f }
def State.modDram (s : State) (c : ChanId) (f : Dram → Dram) : State :=
  { s with dram := vmod s.dram c f }
def State.modToken (s : State) (t : TokenId) (f : Token → Token) : State :=
  { s with tokens := vmod s.tokens t f }
def State.modInflater (s : State) (i : Fin 2) (f : Inflater → Inflater) : State :=
  { s with inflaters := vmod s.inflaters i f }
def State.modSession (s : State) (q : Sess) (f : Session → Session) : State :=
  { s with sessions := vmod s.sessions q (·.map f) }

/-- Engines, lasers, lanes and axes all changed alike. -/
def State.mapEngines (s : State) (f : Engine → Engine) : State := { s with engines := s.engines.map f }
def State.mapLasers (s : State) (f : Laser → Laser) : State := { s with lasers := s.lasers.map f }
def State.mapAxes (s : State) (f : Axis → Axis) : State := { s with axes := s.axes.map f }

/-- Apply an operation for each element in turn. -/
def State.foldFin (n : Nat) (s : State) (f : Fin n → State → State) : State :=
  (List.finRange n).foldl (fun t i => f i t) s

/-- Lists of key and value, keys strictly rising. -/
def assocPut {α : Type} (k : Nat) (v : α) : List (Nat × α) → List (Nat × α)
  | [] => [(k, v)]
  | (k', v') :: t =>
    if k < k' then (k, v) :: (k', v') :: t
    else if k = k' then (k, v) :: t
    else (k', v') :: assocPut k v t

def assocDel {α : Type} (k : Nat) : List (Nat × α) → List (Nat × α)
  | [] => []
  | (k', v') :: t => if k' = k then assocDel k t else (k', v') :: assocDel k t

def assocGet {α : Type} (k : Nat) : List (Nat × α) → Option α
  | [] => none
  | (k', v') :: t => if k' = k then some v' else assocGet k t

/-- The key of an entry. -/
abbrev entryKey (index sub : Nat) : Nat := index * 256 + sub

/-- The value of a numeric entry: the listed one, else the default of its table. -/
def State.val (s : State) (index sub : Nat) : Int :=
  match assocGet (entryKey index sub) s.dict with
  | some v => v
  | none => defaultOf (entryKey index sub)

/-- The same, for entries that hold no negative value. -/
def State.nat (s : State) (index sub : Nat) : Nat := (s.val index sub).toNat

/-- The value of a stored entry as it stood at the last ARM (R91). -/
def State.armNat (s : State) (index sub : Nat) : Nat :=
  match assocGet (entryKey index sub) s.armDict with
  | some v => v.toNat
  | none => (defaultOf (entryKey index sub)).toNat

/-- An entry of which a write in ARMED or PAUSED waits for the next ARM, in a module that may have none armed (R136). -/
def State.inForce (s : State) (index sub : Nat) : Nat :=
  match s.modState with
  | .armed | .building | .paused => s.armNat index sub
  | _ => s.nat index sub

/-- The same, for entries that may be negative. -/
def State.armInt (s : State) (index sub : Nat) : Int :=
  match assocGet (entryKey index sub) s.armDict with
  | some v => v
  | none => defaultOf (entryKey index sub)

/-- Put a value into an entry; the default is not listed. -/
def State.put (s : State) (index sub : Nat) (v : Int) : State :=
  { s with dict :=
      if v = defaultOf (entryKey index sub) then assocDel (entryKey index sub) s.dict
      else assocPut (entryKey index sub) v s.dict }

/-- An octet-string entry; empty where nothing was written. -/
def State.blob (s : State) (index sub : Nat) : Bytes :=
  (assocGet (entryKey index sub) s.blobs).getD []

def State.putBlob (s : State) (index sub : Nat) (v : Bytes) : State :=
  { s with blobs :=
      if v = [] then assocDel (entryKey index sub) s.blobs else assocPut (entryKey index sub) v s.blobs }

/-- A free value: the machine gives some number and the spec does not say which (row 3). -/
def State.takeFree (s : State) : Nat × State := (Config.freeNat s.free, { s with free := s.free + 1 })

/-- Free octets, n of them. -/
def State.takeFreeBytes (s : State) (n : Nat) : Bytes × State :=
  (((Config.freeBytes s.free) ++ List.replicate n 0).take n, { s with free := s.free + 1 })

/-- Count n more on a counter entry. What a counter shows past its highest value the spec does not say:
a free value (row 10). -/
def State.count (s : State) (index sub n : Nat) : State :=
  let v := s.nat index sub + n
  let hi := match findEntry index sub with | some d => d.hi.toNat | none => 0xFFFFFFFF
  if v ≤ hi then s.put index sub v
  else
    let r := s.takeFree
    r.2.put index sub (r.1 % (hi + 1))

def State.bump (s : State) (index sub : Nat) : State := s.count index sub 1

/-- A receiver removes an entry from queue q of an instance: the credit can be spent from the next tick on (R13, R15). -/
def State.freeCredit (s : State) (q inst : Nat) : State := { s with freed := (q, inst) :: s.freed }

/-- Credits of a queue's pool that came back in this tick (R15). -/
def State.freedOf (s : State) (q inst : Nat) : Nat := (s.freed.filter fun x => x == (q, inst)).length

/-- The area of a record type (Table 16.1). -/
def areaOf (type : Nat) : Nat := type / 0x1000

/-- Areas whose stages run in real time and never wait for a Q_EVT credit (R17): engines, ports, melt
pool, axes and cameras (DEDUCED, row 11). -/
def realTimeArea (a : Nat) : Bool := 3 ≤ a && a ≤ 7

/-- Entries of Q_EVT that one area holds. -/
def areaLoad (q : List EvtRec) (a : Nat) : Nat := (q.filter fun r => areaOf r.type == a).length

/-- Credits on Q_EVT that an area has spent and that have not come back before this tick (R15). -/
def State.evtSpent (s : State) (a : Nat) : Nat := areaLoad s.evtQ a + s.freedOf 10 a

/-- The part of the shared credits of Q_EVT in use: 32 are reserved for each of 15 areas, 544 are shared (Table 1.3). -/
def State.evtShared (s : State) : Nat := ((List.range 16).map fun a => s.evtSpent a - 32).sum

/-- An area may send one more record (R13, R15, R18). -/
def State.evtCredit (s : State) (a : Nat) : Bool := s.evtSpent a < 32 || s.evtShared < 544

/-- A record of an area waits for a credit. -/
def State.evtWaits (s : State) (a : Nat) : Bool := s.evtWait.any fun r => areaOf r.type == a

/-- A queue's credit wait count (0xF010.01–0B). -/
def State.waited (s : State) (queue : Nat) : State := s.bump 0xF010 queue

/-- Send an event record through Q_EVT. A real-time stage without credit discards it and counts it (R17); any other
stage waits with it until a credit comes back (R14, R16). -/
def State.emit (s : State) (type source : Nat) (body : List Int) : State :=
  let a := areaOf type
  let r : EvtRec := { type := type, source := source, lost := min ((assocGet a s.evtLost).getD 0) 65535, body := body }
  if s.evtCredit a && !s.evtWaits a then { s with evtQ := s.evtQ ++ [r], evtLost := assocDel a s.evtLost }
  else if realTimeArea a then
    ({ s with evtLost := assocPut a ((assocGet a s.evtLost).getD 0 + 1) s.evtLost }).bump 0xF011 1
  else ({ s with evtWait := s.evtWait ++ [r] } : State).waited 10

/-- Records that wait for a credit enter Q_EVT, in order, as credits allow (R16). -/
def State.evtRefill (s : State) : State :=
  s.evtWait.foldl (fun (s : State) r =>
    if s.evtCredit (areaOf r.type) && !s.evtWaits (areaOf r.type) then { s with evtQ := s.evtQ ++ [r] }
    else { s with evtWait := s.evtWait ++ [r] }) { s with evtWait := [] }

/-- The status answered to the host (R269). -/
def State.reply (s : State) (status : Nat) : State := { s with answer := status }

/-- Ticks in milliseconds. -/
def msTicks (ms : Nat) : Nat := ms * 80000

/-- Codes of the module states (Table 1.5). -/
def ModState.code : ModState → Nat
  | .off => 0x00 | .reset => 0x01 | .boot => 0x02 | .selftest => 0x03 | .ready => 0x04
  | .armed => 0x05 | .building => 0x06 | .paused => 0x07 | .holdup => 0x08 | .safe => 0x09
  | .service => 0x0A | .thermalOff => 0x0B

/-- Codes of the engine states (Table 3.1). -/
def EngState.code : EngState → Nat
  | .idle => 0 | .armed => 1 | .running => 2 | .yielding => 3 | .stalled => 4 | .parked => 5
  | .spare => 6 | .standin => 7 | .trim => 8 | .fault => 9

/-- Entry index of engine e, of port p, of lane n, of axis a. -/
abbrev engIx (base : Nat) (e : EngineId) : Nat := base + 0x100 * e.val
abbrev portIx (base : Nat) (p : LaserId) : Nat := base + 0x100 * p.val
abbrev laneIx (base : Nat) (n : LaneId) : Nat := base + 0x20 * n.val
abbrev axisIx (base : Nat) (a : AxisId) : Nat := base + 0x100 * a.val

/-- Engine e changes state, with the status code of the cause (0x3000.02). -/
def State.engineTo (s : State) (e : EngineId) (st : EngState) (cause : Nat) : State :=
  s.modEngine e fun g => { g with st := st, cause := cause }

/-- The latched overload bit of an output clears as the output is turned on (R384). -/
def State.overloadClear (s : State) (o : Nat) : State :=
  { s with overload := s.overload &&& ~~~(BitVec.ofNat 20 (2 ^ o)) }

/-- A calibration procedure is under way on a laser, R195; 0x0B and 0x0A name none. -/
def CalSt.running (c : CalSt) : Bool := c.state == 1 || c.state == 2

/-- The procedure on a laser must end without results (R195). Causes of record 0xE108: 1 the state was left, 2
takeover, 3 laser unavailable, 4 stopped, 5 reading timeout, 6 discipline lost. -/
def State.abortOn (s : State) (p : Option LaserId) (cause : Nat) : State :=
  if s.cal.running ∧ (p.map (·.val)).getD 99 = s.cal.laser then
    { s with cal := { s.cal with abort := some cause } }
  else s

/-- Device time of the present tick: TAI seconds and nanoseconds. -/
def State.deviceTime (s : State) : Nat × Nat := (s.time.now / 2 ^ 32 / 1000000000, s.time.now / 2 ^ 32 % 1000000000)

/-- What an unlisted byte of working memory reads as: the fill of R306. -/
def memFill : Byte := 0

/-- The bytes of working memory: keys strictly rising, none equal to the fill. -/
def cellsFrom (lo : Nat) : List Host.Cell → Bool
  | [] => true
  | (a, b) :: t => decide (lo ≤ a) && decide (b ≠ memFill) && cellsFrom (a + 1) t

/-- The canonical form of memory. -/
def Memory.wf (m : List Host.Cell) : Bool := cellsFrom 0 m

/-- Read one byte. -/
def memRead : List Host.Cell → Nat → Byte
  | [], _ => memFill
  | (a, b) :: t, x => if x < a then memFill else if x = a then b else memRead t x

/-- Write one byte, keeping the canonical form. -/
def memWrite : List Host.Cell → Nat → Byte → List Host.Cell
  | [], x, v => if v = memFill then [] else [(x, v)]
  | (a, b) :: t, x, v =>
    if x < a then (if v = memFill then (a, b) :: t else (x, v) :: (a, b) :: t)
    else if x = a then (if v = memFill then t else (x, v) :: t)
    else (a, b) :: memWrite t x v

/-- Read n bytes from an address. -/
def memReadN (m : List Host.Cell) (x : Nat) : Nat → Bytes
  | 0 => []
  | n + 1 => memRead m x :: memReadN m (x + 1) n

/-- Write bytes from an address. -/
def memWriteN (m : List Host.Cell) (x : Nat) : Bytes → List Host.Cell
  | [] => m
  | b :: t => memWriteN (memWrite m x b) (x + 1) t

/-- Bytes of working memory (R304: 2 × 8 GiB). -/
def memSize : Nat := 0x400000000

end Sys2Proof.Machine
end

