-- ==== Sys2Proof/Machine/EngineOps.lean ====
section
/-!
DEFINITION. Shared operations on a channel engine: the word under execution, parameter state, gate edges,
segments, claims, block completion, and the stop of R162.
-/
namespace Sys2Proof.Machine

/-- The state an engine acts in: CE12 in STANDIN acts in the state of the engine it replaces (R180). -/
def State.eff (s : State) (e : EngineId) : EngState :=
  match s.engines[e].st with
  | .standin => s.spare.subState
  | x => x

/-- CE12 in the takeover gap has the work of the failed engine, and is not yet in STANDIN (R174, R175). -/
def State.inGap (s : State) (e : EngineId) : Bool := e = 12 && s.spare.takeoverAt.isSome

/-- The state of an engine's work: that it acts in, or in the takeover gap that it takes up after it. -/
def State.workState (s : State) (e : EngineId) : EngState := if s.inGap e then s.spare.subState else s.eff e

/-- The work that CE12 has in the takeover gap ends in a state; it restores no checkpoint then. -/
def State.endGapWork (s : State) (st : EngState) : State :=
  { s with spare := { s.spare with subState := st, restored := none } }

/-- Change the state an engine acts in (R180). -/
def State.setEff (s : State) (e : EngineId) (st : EngState) (cause : Nat) : State :=
  match s.engines[e].st with
  | .standin => ({ s with spare := { s.spare with subState := st } } : State).modEngine e fun g => { g with cause := cause }
  | _ => s.engineTo e st cause

/-- The engine number that ranks: CE12 in STANDIN ranks as the engine it replaces (R98). -/
def State.rankOf (s : State) (e : EngineId) : Nat :=
  if s.engines[e].st = .standin then (s.spare.standinFor.map (·.val)).getD e.val else e.val

/-- A counter of engine e (index base + 0x100·e). -/
def State.bumpE (s : State) (e : EngineId) (base sub : Nat) : State := s.bump (engIx base e) sub

/-- GateAlign of a port, eighth-ticks (R63). -/
def State.alignOf (s : State) (p : LaserId) : Int := s.val (portIx 0x4000 p) 1

/-- GateAlign of the port an engine drives, in eighth-ticks (R63). -/
def State.gateAlign (s : State) (e : EngineId) : Int :=
  match s.engines[e].routed with
  | some p => s.val (portIx 0x4000 p) 1
  | none => 0

/-- The update whose end is the present position instant. -/
def State.update (s : State) : Nat := s.tick / 40

/-- The set-point lead (R57). -/
def leadUpdates : Nat := 24

/-- Set-point generation comes to the end of what the engine has planned within two updates: the words of one update,
one a tick, are complete when it does (R38, R57), and a JUMP posts its claim 80 ticks before its first moving set-point is
generated (R93). -/
def State.motionReached (s : State) (e : EngineId) : Bool :=
  decide (s.engines[e].planEnd ≤ upd * (s.update + leadUpdates + 2))

/-- The same one update earlier: a MARK or a dwell that no JUMP leads to posts its claim 80 ticks before its first
set-point is generated (R93). -/
def State.claimReached (s : State) (e : EngineId) : Bool :=
  decide (s.engines[e].planEnd ≤ upd * (s.update + leadUpdates + 3))

/-- The decoded blocks at the head of the buffer, up to the first place kept for a block that is not decoded. -/
def Engine.ready (g : Engine) : List Block := g.buf.takeWhile fun b => !b.gap

/-- Block-buffer slots of completed blocks whose last words have still to run, or had in the tick before (R15, R20). -/
def Engine.leavingSlots (g : Engine) (tick : Nat) : Nat := g.leaving.countP fun t => decide (upd * (tick - 1) < 40 * t)

/-- Words of the block under execution. -/
def Engine.words (g : Engine) : List VWord := (g.buf.head?.map (·.words)).getD []

/-- No decoded work stands at the head of the buffer (R23). -/
def Engine.noWork (g : Engine) : Bool := (g.buf.head?.map (·.gap)).getD true

/-- The word under execution, and the words from it on. -/
def Engine.rest (g : Engine) : List VWord := g.words.drop g.wordOff
def Engine.word (g : Engine) : Option VWord := g.rest.head?

/-- The engine executes words: RUNNING, waiting for nothing. -/
def State.executing (s : State) (e : EngineId) : Bool :=
  s.eff e == .running && s.engines[e].wait == .none

/-- The parameter state after a parameter word or a label (R34). -/
def applyParam (p : Params) : VWord → Params
  | .setMarkSpeed v => { p with markSpeed := v }
  | .setJumpLimits v a j st => { p with jumpSpeed := v, jumpAccel := a, jumpJerk := j, settle := st }
  | .setPower v => { p with power := v }
  | .setFocus v => { p with focus := v }
  | .setLaserDelays on off md => { p with onDelay := on, offDelay := off, markDelay := md }
  | .setCorner a d sc => { p with cornerAngle := a, cornerDelay := d, cornerScale := sc }
  | .setpoint m sp lo hi =>
    { p with mode := if m = 0 then p.mode else m, setPoint := sp, bandLow := lo, bandHigh := hi }
  | .label pid tag => { p with partId := pid, featureTag := tag }
  | _ => p

/-- The parameter state that the first n words leave (R34). -/
def replayParams (ws : List VWord) (n : Nat) : Params := (ws.take n).foldl applyParam {}

/-- First instant at which a mark segment or a dwell not yet planned can start: at the end of the plan or, after a wait,
at the next set-point not yet generated (R57, R59, Table 4.4). -/
def Engine.startT (g : Engine) : Nat := max g.planEnd (upd * (g.genUpdate + 1))

/-- The same, on an update boundary (R58). -/
def Engine.startU (g : Engine) : Nat := upd * ceilDiv g.startT upd

/-- The start of a JUMP after the planned path: its first update holds the set-point generated last, if the engine has
waited (R62, Table 8.3). -/
def Engine.jumpStart (g : Engine) : Nat := upd * ceilDiv (max g.planEnd (upd * g.genUpdate)) upd

/-- A piece of the path that holds the present position, with the parameters in force. -/
def Engine.piece (g : Engine) (ph : Phase) (t0 dur : Nat) : Motion :=
  { phase := ph, t0 := t0, dur := dur, x0 := g.posX, y0 := g.posY, x1 := g.posX, y1 := g.posY,
    power := g.par.power, focus := g.par.focus, mode := g.par.mode, setPoint := g.par.setPoint,
    bandLow := g.par.bandLow, bandHigh := g.par.bandHigh, partId := g.par.partId,
    featureTag := g.par.featureTag, wordOffset := g.wordOff, blockNo := g.blockNo, half := g.seam, group := g.group }

/-- Append a piece; the gap before it, if any, was a wait (R48). -/
def Engine.plan1 (g : Engine) (m : Motion) : Engine :=
  { g with
    plan := g.plan ++ [m]
    waitUpdates := g.waitUpdates + (m.t0 - g.planEnd) / upd
    planEnd := m.t0 + m.dur
    posX := m.x1
    posY := m.y1 }

/-- Plan time in eighth-ticks, a tie to the later (R64). -/
def eighths (t : Nat) : Int := ((t * 640 + upd) / (2 * upd) : Nat)

/-- The tick at or after an instant in eighth-ticks. -/
def tickOf8 (t8 : Int) : Nat := ((t8 + 7) / 8).toNat

/-- Gate level at an instant: that of the last edge at or before it, else the level before the first listed
edge. -/
def Engine.levelAt (g : Engine) (t8 : Int) : Bool :=
  match (g.edges.filter fun x => decide (x.at8 ≤ t8)).getLast? with
  | some x => x.rise
  | none => g.gate

/-- The last rise at or before an instant. -/
def Engine.riseAt (g : Engine) (t8 : Int) : Int :=
  match (g.edges.filter fun x => x.rise && decide (x.at8 ≤ t8)).getLast? with
  | some x => x.at8
  | none => g.lastRise8

/-- Gate-on time between `from` and `till`, walking the edges: level and instant reached so far. -/
def onTimeFrom (till : Int) : Bool → Int → List Edge → Int
  | on, t, [] => if on then max 0 (till - t) else 0
  | on, t, x :: r =>
    if x.at8 ≤ t then onTimeFrom till x.rise t r
    else if till ≤ x.at8 then (if on then max 0 (till - t) else 0)
    else (if on then x.at8 - t else 0) + onTimeFrom till x.rise x.at8 r

/-- Gate-on time of an engine in an interval, eighth-ticks. -/
def Engine.onTime (g : Engine) (a b : Int) : Int := onTimeFrom b g.gate a g.edges

/-- Forget edges up to an instant. -/
def Engine.pruneEdges (g : Engine) (t8 : Int) : Engine :=
  { g with gate := g.levelAt t8, lastRise8 := g.riseAt t8
           edges := g.edges.filter fun x => decide (t8 < x.at8) }

/-- The gate falls at an instant and no later edge is placed; an edge in that tick is not placed either (R82,
R84, R162). -/
def Engine.gateOffAt (g : Engine) (t8 : Int) : Engine :=
  let kept := { g with edges := g.edges.filter fun x => decide (x.at8 < t8) }
  if kept.levelAt t8 then { kept with edges := kept.edges ++ [⟨t8, false, 0⟩], lastFall8 := t8 }
  else { kept with lastFall8 := min g.lastFall8 t8 }

/-- Place a rising edge, moved where it would follow the last fall too closely (R65 step 1). -/
def State.placeRise (s : State) (e : EngineId) (at8 : Int) : State :=
  let g := s.engines[e]
  let least := g.lastFall8 + 32
  if at8 < least then
    ((s.modEngine e fun g => { g with edges := g.edges ++ [⟨least, true, g.par.power⟩] }).bumpE e 0x3004 2).emit 0x3201
      e.val [e.val, (g.routed.map (·.val)).getD 255, g.posX / 65536, g.posY / 65536, least - at8]
  else s.modEngine e fun g => { g with edges := g.edges ++ [⟨at8, true, g.par.power⟩] }

/-- Place a falling edge; an interval shorter than 4 ticks is suppressed (R65 step 2). -/
def State.placeFall (s : State) (e : EngineId) (at8 : Int) : State :=
  let g := s.engines[e]
  match g.edges.getLast? with
  | some r =>
    if r.rise && at8 - r.at8 < 32 then
      (s.modEngine e fun g => { g with edges := g.edges.dropLast }).bumpE e 0x3004 1
    else s.modEngine e fun g => { g with edges := g.edges ++ [⟨at8, false, 0⟩], lastFall8 := at8 }
  | none => s.modEngine e fun g => { g with edges := [⟨at8, false, 0⟩], lastFall8 := at8 }

/-- Change one claim. -/
def State.modClaim (s : State) (id : Nat) (f : Claim → Claim) : State :=
  { s with claims := s.claims.map fun c => if c.id = id then f c else c }

/-- The spacing part of an engine's claim ends at a tick (R94). -/
def State.releaseClaimAt (s : State) (e : EngineId) (tick : Nat) : State :=
  let t := match s.engines[e].claimId with
    | some id => s.modClaim id fun c => { c with releaseAt := some tick }
    | none => s
  t.modEngine e fun g => { g with claimId := none, claimGranted := false }

/-- All claims of an engine end: granted ones in a tick, as if the gate had fallen then, but for units that have ended
before; waiting ones are discarded (R94). A claim held for a remainder belongs to the remainder (R101). -/
def State.endClaims (s : State) (e : EngineId) (tick : Nat) : State :=
  let kept := s.claims.filter fun (c : Claim) => c.engine != e.val || c.granted || c.held
  let ended := kept.map fun (c : Claim) =>
    if c.engine == e.val && c.granted && !c.held then { c with releaseAt := some (min tick (c.releaseAt.getD tick)) } else c
  ({ s with claims := ended } : State).modEngine e fun g => { g with claimId := none, claimGranted := false }

/-- All claims of an engine end now. -/
def State.dropClaims (s : State) (e : EngineId) : State := s.endClaims e s.tick

/-- Claims of an engine that stand in Q_CLAIM: posted and not yet decided (R13, R18). -/
def State.claimLoad (s : State) (e : EngineId) : Nat :=
  (s.claims.filter fun (c : Claim) => c.engine == e.val && !c.held && !c.granted && !c.waiting).length

/-- The engine holds a credit of its two on Q_CLAIM (R15, R18). -/
def State.claimCredit (s : State) (e : EngineId) : Bool := decide (s.claimLoad e + s.freedOf 3 e.val < 2)

/-- A claim is decided 3 ticks after it arrives (R99). -/
def decisionTicks : Nat := 3

/-- The engine finds no credit on Q_CLAIM: it yields until one comes back (R19). -/
def State.awaitCredit (s : State) (e : EngineId) : State :=
  ((s.waited 3).setEff e .yielding 0).modEngine e fun g => { g with wait := .credit }

/-- Post the claim of a unit (R92, R93) at a tick; one taken over with the engine's work is used, not posted again
(R176). -/
def State.postClaimAt (s : State) (e : EngineId) (r : Rect) (seamId : Option Nat) (tick : Nat) : State :=
  let g := s.engines[e]
  match s.claims.find? fun (c : Claim) => c.engine == e.val && c.rect == r && c.releaseAt.isNone && !c.held with
  | some c =>
    s.modEngine e fun g =>
      { g with claimId := some c.id, claimGranted := c.granted, wait := if c.granted then .none else .claim s.tick }
  | none =>
    if !s.claimCredit e then s.awaitCredit e
    else
      let ctx := match g.buf.head? with | some b => b.ctx | none => 0
      let prio := match assocGet ctx s.contexts with | some c => c.priority | none => 0
      let c : Claim :=
        { id := s.claimSerial, engine := e.val, rect := r, priority := prio, rank := s.rankOf e,
          seamId := seamId, posted := tick, dueAt := some (tick + decisionTicks) }
      ({ s with claims := s.claims ++ [c], claimSerial := s.claimSerial + 1 } : State).modEngine e fun g =>
        { g with claimId := some c.id, claimGranted := false, wait := .claim s.tick }

/-- Post the claim of a unit now. -/
def State.postClaim (s : State) (e : EngineId) (r : Rect) (seamId : Option Nat) : State :=
  s.postClaimAt e r seamId s.tick

/-- Bed units of a position in 1/65,536. -/
def bedUnit (x : Int) : Int := roundDiv x 65536

/-- The claim of the unit that the words begin, from (x, y), posted at a tick. -/
def State.claimUnitAt (s : State) (e : EngineId) (x y : Int) (ws : List VWord) (tick : Nat) : State :=
  let seamId := if unitHasSeam ws then (s.engines[e].seam.map (·.seamId)) else none
  s.postClaimAt e (unitRect x y ws) seamId tick

/-- The same, posted now. -/
def State.claimUnit (s : State) (e : EngineId) (x y : Int) (ws : List VWord) : State := s.claimUnitAt e x y ws s.tick

/-- The SeamID announced by a SEAM word among the words before the unit (R43). -/
def seamAhead : List VWord → Option Nat
  | .seam _ _ _ id :: _ => some id
  | w :: t => if isBetween w then seamAhead t else none
  | [] => none

/-- The path after the end of a segment: rounding to a whole update, and the mark delay (R36, R58). -/
def Engine.planClose (g : Engine) : Engine :=
  if !g.inSegment then g
  else
    let t0 := upd * ceilDiv g.planEnd upd
    let m := { g.piece .markDelay t0 (g.par.markDelay * upd) with inUnit := false }
    { g with plan := g.plan ++ [m], planEnd := t0 + m.dur, inSegment := false, segHasMark := false }

/-- A seam half whose MARK has run ends with its segment's last gate fall; an outgoing one is signalled then (R112). -/
def Engine.endSeam (g : Engine) (fall : Nat) : Engine :=
  match g.seam with
  | some h =>
    if h.marked then { g with seam := none, seamDue := if h.incoming then g.seamDue else g.seamDue ++ [(fall, h)] } else g
  | none => g

/-- End the mark segment under way (R36, R64): its fall, its claim, its seam signal, the rounding to a
whole update and the mark delay. The end of a segment is a pre-emption point (R41). -/
def State.closeSegment (s : State) (e : EngineId) : State :=
  let g := s.engines[e]
  if !g.inSegment then s
  else
    let fall := eighths g.planEnd + s.gateAlign e + g.par.offDelay
    let t := if g.segHasMark then s.placeFall e fall else s
    let t := t.releaseClaimAt e (tickOf8 fall)
    t.modEngine e fun g =>
      { (g.endSeam (tickOf8 fall)).planClose with gateSincePoint := false, atPoint := true, ppOffset := g.wordOff }

/-- Updates for which the block under execution has run (R48, Table 8.2). -/
def Engine.ranFor (g : Engine) : Nat :=
  if g.firstJumpDone then (g.planEnd - g.execStart) / upd - g.waitUpdates + g.ranBefore else 0

/-- The block under execution goes on as one that has run so far (R48). -/
def Engine.runsOn (g : Engine) (jumped : Bool) (ran : Nat) : Engine :=
  { g with firstJumpDone := jumped, execStart := g.planEnd, waitUpdates := 0, ranBefore := ran }

/-- The block's measured time differs from ExecTime by more than the greater of 0.1 % and 2 updates
(R48). -/
def execDeviates (measured stated : Nat) : Bool :=
  let d := if measured ≥ stated then measured - stated else stated - measured
  d > 2 && d * 1000 > stated

/-- Compare a completed block's time (R48). -/
def State.measureBlock (s : State) (e : EngineId) : State :=
  let g := s.engines[e]
  match g.buf.head? with
  | none => s
  | some b =>
    let out := match g.group with | some r => r.outOfOrder | none => false
    let m := g.ranFor
    let done := s.modEngine e fun g => { g with buf := g.buf.modifyHead fun b => { b with measured := true } }
    if b.measured || b.placeholder || out then done
    else if execDeviates m b.header.execTime then
      (done.bumpE e 0x3003 5).emit 0x3102 e.val [e.val, b.address, b.header.execTime, m]
    else done

/-- Index of the n-th entry of a list, from `i` on, that no other engine has taken (R106). -/
def untaken (taken : List Nat) : Nat → Nat → Nat → Nat
  | 0, _, i => i
  | f + 1, n, i =>
    if taken.contains i then untaken taken f n (i + 1)
    else if n = 0 then i else untaken taken f (n - 1) (i + 1)

/-- Index of the n-th block of a context from its ListIndex on that no other engine has taken (R106). -/
def Context.entryAt (c : Context) (n : Nat) : Nat := untaken c.taken (c.taken.length + n + 1) n c.listIndex

/-- The engine a context is assigned to (R157). -/
def Context.owner (c : Context) : Nat := if c.engine = 255 then c.homeEngine else c.engine

/-- Context a goes before context b (R157): priority, then the longer wait, then the lower number. -/
def goesBefore (a b : Nat × Context) : Bool :=
  decide (b.2.priority < a.2.priority)
    || (a.2.priority == b.2.priority
        && (decide (a.2.readyAt < b.2.readyAt) || (a.2.readyAt == b.2.readyAt && decide (a.1 < b.1))))

/-- The ListIndex after the block at which the context stands. -/
def Context.nextIndex (c : Context) : Nat := c.entryAt 0 + 1

/-- Words without the layer-ending word: the layer of the engine that takes them goes on (R186). -/
def openEnded (ws : List VWord) : List VWord :=
  ws.filter fun w => match w with | .layerEnd _ | .endWord => false | _ => true

/-- Change one context. -/
def State.modCtx (s : State) (c : Nat) (f : Context → Context) : State :=
  { s with contexts := match assocGet c s.contexts with
      | some x => assocPut c (f x) s.contexts
      | none => s.contexts }

/-- Pass the blocks at the head that hold no word: placeholders (R52). -/
def State.passEmpty (s : State) (e : EngineId) : Nat → State
  | 0 => s
  | f + 1 =>
    match s.engines[e].buf with
    | b :: t =>
      if b.words.isEmpty && !b.gap then
        let s := (s.freeCredit 2 e.val).modEngine e fun g => { g with buf := t, wordOff := 0, ppOffset := 0 }
        (if b.stolen then s else s.modCtx b.ctx fun c => { c with listIndex := c.nextIndex }).passEmpty e f
      else s
    | [] => s

/-- The engine has completed the block at its head (R20, R48). -/
def State.blockDone (s : State) (e : EngineId) : State :=
  let s := (s.closeSegment e).measureBlock e
  let g := s.engines[e]
  match g.buf with
  | [] => s
  | b :: t =>
    let s := s.modEngine e fun g =>
      { g with
        lastBlock := some b, leaving := g.leaving ++ [g.planEnd], blockNo := g.blockNo + 1, buf := t, wordOff := 0, ppOffset := 0
        firstJumpDone := false, waitUpdates := 0, ranBefore := 0, group := none, execStart := g.planEnd
        par := { g.par with partId := 0, featureTag := 0 } }
    (if b.stolen || isTemplate b.header then s
     else s.modCtx b.ctx fun c =>
      { c with listIndex := c.nextIndex, blocksDone := c.blocksDone + 1, wordOffset := 0 }).passEmpty e 4

/-- Indexes of the members of a group not yet executed. -/
def Group.left (g : Group) : List Nat := (List.range g.members.length).filter fun i => !g.done.contains i

/-- The next member not yet executed in group order after `cur`, wrapping (R103). -/
def Group.nextAfter (g : Group) (cur : Nat) (skip : List Nat) : Option Nat :=
  let l := g.left.filter fun i => !skip.contains i
  (l.find? fun i => cur < i).or l.head?

/-- Stand before member i of the group, with the label in force at the begin word (R42). -/
def Engine.toMember (g : Engine) (gr : Group) (i : Nat) : Engine :=
  { g with
    group := some { gr with current := i }
    wordOff := gr.members.getD i gr.endOffset
    par := { g.par with partId := gr.partId, featureTag := gr.featureTag } }

/-- The word to be executed next; the end of a member leads to the next member not executed (R42, R103). -/
def Engine.toNext (g : Engine) : Engine :=
  match g.group with
  | some gr =>
    if g.wordOff ≥ gr.members.headD 0 && g.wordOff < gr.endOffset
        && (g.wordOff + 1 = gr.endOffset || gr.members.contains (g.wordOff + 1)) then
      let gr := { gr with done := gr.done ++ [gr.current], refused := [] }
      match gr.nextAfter gr.current [] with
      | some i => g.toMember { gr with outOfOrder := gr.outOfOrder || decide (i ≠ gr.current + 1) } i
      | none => { g with group := some gr, wordOff := gr.endOffset }
    else { g with wordOff := g.wordOff + 1 }
  | none => { g with wordOff := g.wordOff + 1 }

/-- Go on to the next word; past the last one the block is complete. -/
def State.advance (s : State) (e : EngineId) : State :=
  let s := s.modEngine e Engine.toNext
  if s.engines[e].wordOff ≥ s.engines[e].words.length then s.blockDone e else s

/-- Distance run along the original MARK at an instant, in bed units (R160). -/
def Motion.markDone (m : Motion) (t : Nat) : Nat :=
  let len := length16 (m.x1 - m.x0) (m.y1 - m.y0) / 65536
  m.seamOffset + (if m.phase = .mark ∧ 0 < m.dur then len * min (t - m.t0) m.dur / m.dur else 0)

/-- MarkFraction (Table 7.1): part of the MARK run, in 2^−32. -/
def Motion.markFraction (m : Motion) (t : Nat) : Nat :=
  let total := m.seamOffset + length16 (m.x1 - m.x0) (m.y1 - m.y0) / 65536
  if total = 0 then 0 else min (m.markDone t * 2 ^ 32 / total) 0xFFFFFFFF

/-- The first update whose gate instant G_k falls after the present tick (R162). -/
def State.stopUpdate (s : State) (e : EngineId) : Nat :=
  ((8 * s.tick - s.gateAlign e) / 320 + 1).toNat

/-- A block that was complete is under execution again: its list entry is the current one (R162, R177). -/
def State.reopen (s : State) (b : Block) : State :=
  if b.stolen || isTemplate b.header then s
  else s.modCtx b.ctx fun c => { c with listIndex := b.listIndex, blocksDone := c.blocksDone - 1 }

/-- Stop the engine at update k (R162): the gate falls at G_k with no OffDelay, the path ends at P_k, and the
words beyond are taken back. -/
def State.stopAt (s : State) (e : EngineId) (k : Nat) (fall8 : Int) : State :=
  let s := match motionPiece s.engines[e].plan (upd * k), s.engines[e].lastBlock with
    | some m, some b => if m.blockNo < s.engines[e].blockNo then s.reopen b else s
    | _, _ => s
  s.modEngine e fun g =>
    let t := upd * k
    let late := fun (x : Nat × SeamHalf) => decide (tickOf8 fall8 < x.1)
    let g := { g.gateOffAt fall8 with
      frames := g.frames.filter (fun f => decide (f.k ≤ k)), genFrom := g.genUpdate + 1
      seamDue := g.seamDue.filter fun x => !late x }
    match motionPiece g.plan t with
    | none =>
      { g with stopX := g.posX, stopY := g.posY, stopTick := s.tick, stopInUnit := false,
               stopDwell := 0, stopFraction := 0, breakTo := none, plan := [], planEnd := t, inSegment := false, segHasMark := false,
               wait := .none }
    | some m =>
      let (x, y) := motionAt m t
      let len := length16 (m.x1 - m.x0) (m.y1 - m.y0) / 65536
      let total := m.seamOffset + len
      let inUnit := m.phase == .mark || m.phase == .corner || m.phase == .dwellOn
      let ended := decide (m.t0 + m.dur ≤ t)
      let back := m.blockNo < g.blockNo
      let buf := if back then (match g.lastBlock with | some b => b :: g.buf | none => g.buf) else g.buf
      let ws := (buf.head?.map (·.words)).getD []
      -- a piece that has run to its end leaves the engine at the word after it
      let off := if ended && !inUnit && m.phase != .markDelay && m.back = 0 then m.wordOffset + 1 else m.wordOffset
      let h :=
      { g with
        stopX := x, stopY := y, stopTick := s.tick, stopInUnit := inUnit, backTo := none, breakTo := m.brk
        stopDwell := if m.phase = .dwellOn then ((m.t0 + m.dur - t) * 320 + upd - 1) / upd else 0
        stopFraction := m.markFraction t
        stopMarkX0 := if len = 0 then m.x0 else m.x1 - (m.x1 - m.x0) * total / len
        stopMarkY0 := if len = 0 then m.y0 else m.y1 - (m.y1 - m.y0) * total / len
        buf := buf, blockNo := if back then g.blockNo - 1 else g.blockNo
        leaving := if back then g.leaving.dropLast else g.leaving
        wordOff := off, par := { replayParams ws off with partId := m.partId, featureTag := m.featureTag }, plan := [], planEnd := t, posX := x, posY := y
        inSegment := false, segHasMark := false, gateSincePoint := false, group := m.group, wait := .none
        seam := m.half }
      -- a stop in a resume jump keeps the point at which the word continues
      if m.back = 0 then h
      else
        { h with
          stopX := g.stopX, stopY := g.stopY, stopInUnit := m.back == 2, stopDwell := g.stopDwell
          stopFraction := g.stopFraction, stopMarkX0 := g.stopMarkX0, stopMarkY0 := g.stopMarkY0
          backTo := some (g.stopX, g.stopY) }

/-- Stop at the first update whose gate instant falls after the present tick (R162). -/
def State.stopEngine (s : State) (e : EngineId) : State :=
  let k := s.stopUpdate e
  s.stopAt e k (320 * k + s.gateAlign e)

/-- The save area of a stopped engine (Table 7.2). -/
def Engine.area (g : Engine) (dwell : Nat) : SaveArea :=
  { par := g.par, group := g.group, seam := g.seam, dwellRemaining := dwell, posX := g.stopX, posY := g.stopY }

/-- Save slots of the context RAM: 96, of which slots 83 to 95 are the reserves of the 13 engines (R159). -/
def usedSlots (cs : List (Nat × Context)) : List Nat :=
  (cs.map fun c => c.2.saveSlot).filter fun n => n < 96

/-- The lowest unreserved slot that is free. -/
def freeSlot (cs : List (Nat × Context)) : Option Nat :=
  (List.range 83).find? fun n => !(usedSlots cs).contains n

/-- Free slots, for FreeSaveSlots and the spill rule (R161). -/
def freeSlots (cs : List (Nat × Context)) : Nat := 96 - (usedSlots cs).length

/-- The slot of a save that cannot be deferred: an unreserved one, else the engine's reserve (R159). -/
def saveSlotFor (cs : List (Nat × Context)) (e : EngineId) : Nat := (freeSlot cs).getD (83 + e.val)

/-- The engine's reserve is in use: it selects nothing (R159). -/
def reserveInUse (cs : List (Nat × Context)) (e : EngineId) : Bool := (usedSlots cs).contains (83 + e.val)

/-- Write the running context's descriptor and save area from the stopped engine (R153, R154); `mark` sets
the flags of the kind of stop. -/
def State.saveContext (s : State) (e : EngineId) (slot : Nat) (mark : Context → Context) : State :=
  let g := s.engines[e]
  match g.ctx with
  | none => s
  | some c =>
    (s.modCtx c.val fun x => mark
      { x with
        st := .preempted, saveSlot := if x.saveSlot < 96 then x.saveSlot else slot, inUnit := g.stopInUnit, noSpill := false
        brk := g.breakTo.isSome, stopX := bedUnit g.stopX
        stopY := bedUnit g.stopY, stopTick := s.tick, markFraction := g.stopFraction
        markX0 := g.stopMarkX0, markY0 := g.stopMarkY0, wordOffset := g.wordOff
        blockAddress := (g.buf.head?.map (·.address)).getD x.blockAddress
        partId := g.par.partId, featureTag := g.par.featureTag, preemptCount := x.preemptCount + 1
        ran := g.ranFor, jumped := g.firstJumpDone, breakTo := g.breakTo
        area := some (g.area g.stopDwell), kept := g.ready, readyAt := s.tick }).modEngine e fun g =>
      { g with ctx := none, buf := [], wordOff := 0, group := none, seam := none, claimId := none,
               claimGranted := false, stopInUnit := false, breakTo := none }

/-- The count of a token rises by 1 in a tick, saturating (R108). -/
def Token.advance (k : Token) (tick : Nat) : Token :=
  { k with count := min (k.count + 1) 65535, before := if k.changed = tick then k.before else k.count, changed := tick }

/-- The count that every engine sees in a tick: a change is visible from the tick after it (R108). -/
def Token.seen (k : Token) (tick : Nat) : Nat := if k.changed < tick then k.count else k.before

/-- The count of a token as engines see it has reached Count (R108). -/
def State.tokenReached (s : State) (t n : Nat) : Bool :=
  if h : t < 64 then decide (n ≤ s.tokens[t].seen s.tick) else false

/-- A SeamID is in a token's mailbox as engines see it (R108, R112). -/
def State.seamIn (s : State) (t id : Nat) : Bool :=
  if h : t < 64 then s.tokens[t].mailbox.any fun m => m.1 == id && decide (m.2.2.2 < s.tick) else false

/-- The restart point of R160 for a stop at (x, y) on a MARK from (mx, my): 20 µm (800 bed units) before the stop along
the MARK, or its start vertex; with the distance from the vertex in bed units. -/
def restartPoint (x y mx my : Int) : Int × Int × Nat :=
  let dx := x - mx
  let dy := y - my
  let len := isqrt (dist2 dx dy)
  if len ≤ 800 * 65536 then (mx, my, 0)
  else (x - roundDiv (dx * (800 * 65536)) len, y - roundDiv (dy * (800 * 65536)) len, len / 65536 - 800)

/-- The claim rectangle of the rest of a unit after a break at b, from the restart point (R92, R160). -/
def breakRect (rx ry : Int) (b : BreakPoint) (ws : List VWord) : Rect :=
  let r : Rect := { x0 := bedUnit rx, y0 := bedUnit ry, x1 := bedUnit rx, y1 := bedUnit ry }
  segmentRect (r.hold (bedUnit b.x) (bedUnit b.y)) ws

/-- Causes of LaserUnavailable (Table 3.11), in its order. -/
inductive LaserCause where
  | ready | alarm | link | hfault | emit
  deriving DecidableEq, Repr

def LaserCause.code : LaserCause → Nat
  | .ready => 0 | .alarm => 1 | .link => 2 | .hfault => 3 | .emit => 4

/-- The conditions of R85 hold. -/
def Laser.usable (l : Laser) : Bool :=
  l.readyHigh && l.alarmHigh && l.link == .up && !l.withdrawn && decide (l.emitMismatch < 3)

/-- The condition of R85 that fails, in the order of Table 3.11 (DESIGN CHOICE where several do, row 53). -/
def Laser.failing (l : Laser) : LaserCause :=
  if !l.readyHigh then .ready else if !l.alarmHigh then .alarm else if l.link != .up then .link
  else if l.withdrawn then .hfault else .emit

/-- Position at which the word under execution starts. -/
def Engine.here (g : Engine) : Int × Int := g.backTo.getD (g.posX, g.posY)

/-- Words that end a mark segment (R36). -/
def endsSegment : VWord → Bool
  | .jump .. | .dwell false _ | .group .. | .layerEnd _ | .endWord => true
  | _ => false

/-- An engine that has executed no gate-on word since its last pre-emption point stands at that point
(R101, R158). -/
def Engine.standsAtPoint (g : Engine) : Bool := !g.gateSincePoint && !g.inSegment

/-- The crossbar routes laser p to an engine from now on; 255 none (R119). -/
def State.route (s : State) (p : LaserId) (e : Nat) : State :=
  s.modLaser p fun l => { l with routes := ((s.tick, e) :: l.routes).take 16 }

/-- The engine to which laser p was routed at a tick; CEp until the crossbar first changed (R119). -/
def State.routedAt (s : State) (p : LaserId) (tick : Nat) : Nat :=
  match s.lasers[p].routes.find? fun x => decide (x.1 ≤ tick) with
  | some x => x.2
  | none => p.val

/-- Plan time of a position instant given in eighth-ticks. -/
def planTime (t8 : Int) : Nat := (t8 * upd / 320).toNat

end Sys2Proof.Machine
end

