-- ==== Sys2Proof/Machine/Translate.lean ====
section
/-!
DEFINITION. Address translation (R163, R164): the three-level walk over the tables in working memory, the
TLBs, translation fault records (R165, Table 7.11), and what the fetch unit reads of lists and headers.
-/
namespace Sys2Proof.Machine

/-- An entry that a walk may follow at a level: V, reserved bits, LEAF, address (Table 7.6, R163). The code
is the cause of Table 7.11; 0 when it may be followed. -/
def entryCause (level e : Nat) : Nat :=
  if !bitOf e 0 then 0x01
  else if field e 63 48 != 0 || field e 11 5 != 0 then 0x02
  else if bitOf e 1 != (level == 3) then 0x03
  else if field e 47 12 * 4096 ≥ memSize || (level == 3 && field e 15 12 != 0) then 0x04
  else 0

/-- The table or page address of an entry. -/
def entryAddress (e : Nat) : Nat := field e 47 12 * 4096

/-- The table entry at an index. -/
def tableEntry (m : List Host.Cell) (base i : Nat) : Nat := leNat (memReadN m (base + 8 * i) 8)

/-- The permission an access needs (Table 7.6); only the security unit writes PROT pages. -/
def permitted (e : Nat) (write security : Bool) : Bool :=
  if write then bitOf e 3 && (!bitOf e 4 || security) else bitOf e 2

/-- The walk of R163: the level-3 entry, or the level where the walk stops and its cause. -/
def walk (m : List Host.Cell) (base va : Nat) (write security : Bool) : Except (Nat × Nat) Nat :=
  let e1 := tableEntry m base (field va 47 40)
  if entryCause 1 e1 != 0 then .error (1, entryCause 1 e1)
  else
    let e2 := tableEntry m (entryAddress e1) (field va 39 28)
    if entryCause 2 e2 != 0 then .error (2, entryCause 2 e2)
    else
      let e3 := tableEntry m (entryAddress e2) (field va 27 16)
      if entryCause 3 e3 != 0 then .error (3, entryCause 3 e3)
      else if !permitted e3 write security then .error (3, 0x05)
      else .ok e3

/-- Physical address of a virtual address, without touching the TLBs. -/
def State.physOf (s : State) (space va : Nat) (write : Bool) : Option Nat :=
  match walk s.mem (s.tableBase.toList.getD (space % 64) 0) va write false with
  | .ok e => some (entryAddress e + va % 65536)
  | .error _ => none

/-- Codes of the masters (Table 7.11). -/
def masterCode : Master → Nat
  | .fetch => 1 | .security => 2 | .ledger => 3 | .compositor => 4 | .camera => 5 | .compression => 6
  | .recorder => 7 | .spill => 8 | .dma => 9

/-- Channel, bank (bank group × 4 + bank) and row of a physical address under an order (Table 14.1). -/
def mapAddress (order pa : Nat) : Nat × Nat × Nat :=
  let f := field pa
  match order with
  | 0 => (f 6 6, f 8 7 * 4 + f 10 9, f 33 18)
  | 1 => (f 13 13, f 15 14 * 4 + f 17 16, f 33 18)
  | 2 => (f 33 33, f 7 6 * 4 + f 9 8, f 32 17)
  | _ =>
    ((f 6 6) ^^^ (f 18 18) ^^^ (f 25 25) ^^^ (f 32 32),
      ((f 8 7) ^^^ (f 19 18) ^^^ (f 27 26)) * 4 + ((f 10 9) ^^^ (f 21 20) ^^^ (f 29 28)), f 33 18)

/-- The map order in force: the one restored at the last restart (R307). -/
def State.mapOrder (s : State) : Nat := s.nv.mapOrder

/-- Requester code of record 0xC103: a master of Table 7.11, 0 the walker or firmware, 0xFE the scrub. -/
def requesterCode : Requester → Nat
  | .unit m => masterCode m
  | .walker _ => 0

/-- Outcome of an uncorrectable read by requester, the row of Table 14.2. -/
def requesterOutcome : Requester → Nat
  | .unit .fetch => 1 | .unit .ledger => 2 | .unit .spill => 3 | .unit .compositor => 4
  | .unit .compression | .unit .dma | .unit .recorder => 5
  | .walker true => 6
  | .walker false => 7
  | .unit .camera | .unit .security => 0

/-- A line becomes poisoned (R314): counted, recorded with its requester and outcome. -/
def State.poison (s : State) (c : ChanId) (line requester outcome : Nat) : State :=
  let s := if s.poisoned.contains line then s else { s with poisoned := s.poisoned ++ [line] }
  let s := (s.bump (0xC010 + c.val) 7).put (0xC010 + c.val) 10 (64 * line)
  s.emit 0xC103 255 [c.val, 64 * line, requester, outcome]

/-- Some line of a physical range holds an uncorrectable error (R314). -/
def State.poisonedRange (s : State) (p n : Nat) : Bool :=
  s.poisoned.any fun l => decide (l * 64 < p + n) && decide (p < l * 64 + 64)

/-- A master reads a physical range: its octets, or none where a line is uncorrectable (R314). -/
def State.readPhys (s : State) (m : Master) (p n : Nat) : State × Option Bytes :=
  match s.poisoned.find? fun l => decide (l * 64 < p + n) && decide (p < l * 64 + 64) with
  | some l =>
    let c : ChanId := if (mapAddress s.mapOrder (64 * l)).1 = 0 then 0 else 1
    (s.poison c l (requesterCode (.unit m)) (requesterOutcome (.unit m)), none)
  | none => (s, some (memReadN s.mem p n))

/-- A master writes a physical range: whole lines replace poison; false where part of a poisoned line is written,
which fails (R314). -/
def State.storePhys (s : State) (p : Nat) (b : Bytes) : State × Bool :=
  let whole := fun (l : Nat) => decide (p ≤ l * 64) && decide (l * 64 + 64 ≤ p + b.length)
  if s.poisoned.any fun l => decide (l * 64 < p + b.length) && decide (p < l * 64 + 64) && !whole l then (s, false)
  else ({ s with mem := memWriteN s.mem p b, poisoned := s.poisoned.filter fun l => !whole l }, true)

/-- Put an entry into a TLB of a given size. Which entry a full TLB gives up the spec does not say: a free
value (row 12). -/
def tlbInsert (f size : Nat) (e : TlbEntry) (l : List TlbEntry) : List TlbEntry :=
  if l.length < size then l ++ [e] else l.eraseIdx (f % size) ++ [e]

/-- A lookup through the master's TLB, the shared TLB and the walk, counting misses (R164, Table 7.9). A
walk that faults allocates no entry. -/
def State.translate (s : State) (m : Master) (space va : Nat) (write : Bool) :
    State × Except (Nat × Nat) Nat :=
  let vp := va / 65536
  let hit := fun (e : TlbEntry) => e.space == space && e.vpage == vp
  let ok := fun (e : TlbEntry) => if write then e.w && (!e.prot || m == .security) else e.r
  let mine := (s.tlb.filter fun x => x.1 == masterCode m).map (·.2)
  match mine.find? hit with
  | some e =>
    (s, if ok e then .ok (e.ppage * 65536 + va % 65536) else .error (3, 0x05))
  | none =>
    let s := s.bump 0xC100 1
    let put := fun (s : State) (e : TlbEntry) =>
      let r := s.takeFree
      let l := tlbInsert r.1 64 e mine
      { r.2 with tlb := (s.tlb.filter fun x => x.1 != masterCode m) ++ l.map fun x => (masterCode m, x) }
    match s.sharedTlb.find? hit with
    | some e =>
      if ok e then (put s e, .ok (e.ppage * 65536 + va % 65536)) else (s, .error (3, 0x05))
    | none =>
      let s := s.bump 0xC100 2
      match walk s.mem (s.tableBase.toList.getD (space % 64) 0) va write (m == .security) with
      | .error x => (s, .error x)
      | .ok x =>
        let e : TlbEntry := { space := space, vpage := vp, ppage := entryAddress x / 65536, r := bitOf x 2,
                              w := bitOf x 3, prot := bitOf x 4 }
        let r := s.takeFree
        let s := put { r.2 with sharedTlb := tlbInsert r.1 1024 e r.2.sharedTlb } e
        (s, .ok (entryAddress x + va % 65536))

/-- The bytes of a virtual range, read through the tables page by page; none where a page is not mapped. -/
def State.readVirtual (s : State) (space va : Nat) : Nat → Option Bytes
  | 0 => some []
  | n + 1 =>
    match s.physOf space va false with
    | none => none
    | some p => (s.readVirtual space (va + 1) n).map (memRead s.mem p :: ·)

/-- A virtual range that does not cross a 64 KiB page, read at once. -/
def State.readPage (s : State) (space va n : Nat) : Option Bytes :=
  (s.physOf space va false).map fun p => memReadN s.mem p n

/-- Entry i of a block list (R29): 16 bytes, never across a page. -/
def State.listEntry (s : State) (c : Context) (i : Nat) : Option ListEntry :=
  (s.readPage c.space (c.listBase + 16 * i) 16).map parseListEntry

/-- Entry i lies behind the LIST_END entry of a list (R29). -/
def State.listOver (s : State) (c : Context) (i : Nat) : Bool :=
  decide (0 < i) && ((s.listEntry c (i - 1)).map (·.listEnd)).getD false

/-- The bytes of a block header at a virtual address (R30): aligned to 32, never across a page. -/
def State.headerBytes (s : State) (space va : Nat) : Option Bytes := s.readPage space va 32

/-- A fault record enters the fault queue (R165, Table 7.11). -/
def State.recordFault (s : State) (f : FaultRec) : State :=
  let s := (s.bump 0x3D01 1).bump (0x3D40 + f.space) 4
  let f := { f with tick := s.tick, number := s.nat 0x3D01 1, deadline := s.tick + msTicks (s.nat 0x3D01 3) }
  let s := { s with faults := s.faults ++ [f], lastFault := some f }
  s.emit 0xC301 f.inst
    [f.space, f.master, f.inst, if f.write then 1 else 0, f.level, f.cause, f.address, s.tick, f.progress, f.number]

/-- A master faults: the fault is recorded; with 64 records queued the master waits until one frees (R165, R166). -/
def State.raiseFault (s : State) (m : Master) (inst space va : Nat) (write : Bool) (level cause progress : Nat) :
    State :=
  let f : FaultRec :=
    { space := space, master := masterCode m, inst := inst, write := write, level := level, cause := cause,
      address := va, progress := progress }
  if s.faults.length < 64 then s.recordFault f else { s with faultWait := s.faultWait ++ [f] }

/-- Entries of the fault queue have freed: masters that wait for one record their faults (R166). -/
def State.admitFaults (s : State) : State :=
  let n := 64 - s.faults.length
  (s.faultWait.take n).foldl State.recordFault { s with faultWait := s.faultWait.drop n }

/-- A master's fault on a page is pending, so that the transfer is held (R165). -/
def State.faultHeld (s : State) (m : Master) (inst space va : Nat) : Bool :=
  (s.faults ++ s.faultWait).any fun f =>
    f.master == masterCode m && f.inst == inst && f.space == space && f.address / 65536 == va / 65536

/-- The address of a fetch fault lies outside every section of the package that is mapped, so that no page can be decrypted
for it (R166, R367). Which other regions firmware maps the spec does not say: their faults wait for FaultTimeout (row 74). -/
def State.unmapped (s : State) (f : FaultRec) : Bool :=
  f.master == 1 && match s.pkg.inForce with
    | none => false
    | some p => !(p.sections.any fun x =>
        x.kind == 2 && x.space == f.space && decide (x.va / 65536 ≤ f.address / 65536)
          && decide (f.address / 65536 ≤ (x.va + x.length) / 65536))

/-- A queued fault is unresolvable: unmapped, or pending after FaultTimeout (R166). -/
def State.faultLost (s : State) (f : FaultRec) : Bool := s.unmapped f || decide (f.deadline ≤ s.tick)

/-- Raise a fault unless it is pending already. -/
def State.faultOnce (s : State) (m : Master) (inst space va : Nat) (write : Bool) (level cause progress : Nat) : State :=
  if s.faultHeld m inst space va then s else s.raiseFault m inst space va write level cause progress

/-- Translate every page of a range for a master: the address, level and cause of the first that faults. -/
def State.translateRange (s : State) (m : Master) (space : Nat) (write : Bool) :
    Nat → Nat → Nat → State × Option (Nat × Nat × Nat)
  | 0, _, _ => (s, none)
  | f + 1, va, n =>
    if n = 0 then (s, none)
    else
      match s.translate m space va write with
      | (s, .error (l, c)) => (s, some (va, l, c))
      | (s, .ok _) =>
        let k := min n (65536 - va % 65536)
        s.translateRange m space write f (va + k) (n - k)

/-- A fault of the fetch unit for an engine is pending on one of the pages in which a block at an address lies. -/
def State.blockHeld (s : State) (e : EngineId) (space va : Nat) : Bool :=
  (List.range 3).any fun i => s.faultHeld .fetch e.val space (va + 65536 * i)

/-- The 32 bytes of a fault record (Table 7.11). -/
def FaultRec.bytes (f : FaultRec) : Bytes :=
  leBytes 1 f.space ++ leBytes 1 f.master ++ leBytes 1 f.inst ++ leBytes 1 (b2n f.write) ++ leBytes 1 f.level
    ++ leBytes 1 f.cause ++ leBytes 2 0 ++ leBytes 8 f.address ++ leBytes 8 f.tick ++ leBytes 4 f.progress
    ++ leBytes 4 f.number

/-- Decoded blocks of a context on an engine: those in its run and those kept for the context's return (R158). A place
kept for a block whose fetch faulted counts with its entry in Q_FETCH. -/
def State.decoded (s : State) (e : EngineId) (n : Nat) (c : Context) : Nat :=
  ((s.engines[e].buf.filter fun b => b.ctx == n && !b.stolen && !b.gap).length) + (if c.owner = e.val then c.kept.length else 0)

/-- Blocks of a context that are buffered on an engine or in its fetch stream. -/
def State.inFlight (s : State) (e : EngineId) (n : Nat) (c : Context) : Nat :=
  s.decoded e n c + ((s.fetched.filter fun x => x.1 == e && x.2.1.ctx == n && !x.2.1.stolen).length)

/-- Index of the list entry of a context that its engine fetches next. -/
def State.nextEntry (s : State) (e : EngineId) (n : Nat) (c : Context) : Nat :=
  c.entryAt (s.inFlight e n c)

/-- The pending entries of a context from index i on within its layer: those whose header names the layer;
at most `fuel` of them (R29: at most 65,536). -/
def State.pendingFrom (s : State) (c : Context) (layer : Nat) : Nat → Nat → List (Nat × ListEntry × BlockHeader)
  | 0, _ => []
  | f + 1, i =>
    match s.listEntry c i with
    | none => []
    | some l =>
      match s.headerBytes c.space l.address with
      | none => []
      | some hb =>
        let h := parseHeader hb
        if h.layer ≠ layer then []
        else
          let more := if l.listEnd || lastInLayer h then [] else s.pendingFrom c layer f (i + 1)
          if c.taken.contains i then more else (i, l, h) :: more

end Sys2Proof.Machine
end

