-- ==== Sys2Proof/Machine/Arbiter.lean ====
section
/-!
DEFINITION. Sharing the bed (chapter 4): conflict tests, arbitration, the wait bound and parks, re-queued
remainders, work stealing, sync tokens and seam mailboxes.
-/
namespace Sys2Proof.Machine

/-- Bed units in a number of micrometres. -/
def um (n : Nat) : Int := (n : Int) * 40

/-- Two closed intervals share a point. -/
def meetsIv (a0 a1 b0 b1 : Int) : Bool := decide (a0 ≤ b1) && decide (b0 ≤ a1)

/-- The spacing test of R95 fails. -/
def spacingFails (spacing : Int) (n a : Rect) : Bool :=
  meetsIv (n.x0 - spacing) (n.x1 + spacing) a.x0 a.x1 && meetsIv (n.y0 - spacing) (n.y1 + spacing) a.y0 a.y1

/-- A flow box: u and w intervals, scaled by 2^48 (R96). -/
structure FlowBox where
  u0 : Int
  u1 : Int
  w0 : Int
  w1 : Int
  deriving DecidableEq, Repr

/-- The flow box of a rectangle for an angle in 0.01° (R96). -/
def flowBox (angle : Nat) (r : Rect) : FlowBox :=
  let (sn, cs) := sinCos ((angle : Int) * 10)
  let u := fun (x y : Int) => x * cs + y * sn
  let w := fun (x y : Int) => -x * sn + y * cs
  let us := [u r.x0 r.y0, u r.x0 r.y1, u r.x1 r.y0, u r.x1 r.y1]
  let ws := [w r.x0 r.y0, w r.x0 r.y1, w r.x1 r.y0, w r.x1 r.y1]
  { u0 := us.foldl min (u r.x0 r.y0), u1 := us.foldl max (u r.x0 r.y0),
    w0 := ws.foldl min (w r.x0 r.y0), w1 := ws.foldl max (w r.x0 r.y0) }

/-- The keep-out parameters in force at ARM (R104), in scaled bed units; spread in 1/1,000. -/
structure KeepOut where
  enable : Bool
  angle : Nat
  length : Int
  half : Int
  spread : Nat
  upstream : Int
  deriving DecidableEq, Repr

def State.keepOut (s : State) : KeepOut :=
  { enable := s.armNat 0x2801 8 == 1, angle := s.armNat 0x2801 2,
    length := um (s.armNat 0x2801 3) * trigOne, half := um (s.armNat 0x2801 4) * trigOne,
    spread := s.armNat 0x2801 5, upstream := um (s.armNat 0x2801 6) * trigOne }

/-- Box c meets the keep-out region of box b (R96). -/
def meetsKeepOut (k : KeepOut) (b c : FlowBox) : Bool :=
  let ue := min c.u1 (b.u1 + k.length)
  let h := k.half + (max 0 (ue - b.u1)) * k.spread / 1000
  meetsIv c.u0 c.u1 (b.u0 - k.upstream) (b.u1 + k.length) && meetsIv c.w0 c.w1 (b.w0 - h) (b.w1 + h)

/-- The spacing part of a claim is held (R94). -/
def Claim.spacingHeld (c : Claim) (tick : Nat) : Bool :=
  match c.releaseAt with | none => true | some t => decide (tick < t)

/-- KeepOutPersist in ticks (R94). -/
def State.persist (s : State) : Nat := s.armNat 0x2801 7 * 80

/-- Some part of a claim is held. -/
def Claim.keepHeld (c : Claim) (tick persist : Nat) : Bool :=
  match c.releaseAt with | none => true | some t => decide (tick < t + persist)

/-- N conflicts with A (R97). -/
def State.conflict (s : State) (n a : Claim) : Bool :=
  let k := s.keepOut
  -- a held claim belongs to its remainder, not to an engine (R102)
  if n.engine == a.engine && !n.held && !a.held then false
  else if n.seamId.isSome && n.seamId == a.seamId then false
  else
    (a.spacingHeld s.tick && spacingFails (um (s.armNat 0x2801 1)) n.rect a.rect)
    || (k.enable && a.keepHeld s.tick s.persist
        && meetsKeepOut k (flowBox k.angle a.rect) (flowBox k.angle n.rect))
    || (k.enable && a.spacingHeld s.tick
        && meetsKeepOut k (flowBox k.angle n.rect) (flowBox k.angle a.rect))

/-- Claim a ranks above claim b (R98). -/
def outranks (a b : Claim) : Bool :=
  decide (b.priority < a.priority) || (a.priority == b.priority && decide (a.rank < b.rank))

/-- The claims that keep a claim from being granted: active claims, and waiting claims of higher rank, in
conflict with it (R99). -/
def State.blockers (s : State) (c : Claim) : List Claim :=
  s.claims.filter fun a =>
    a.id != c.id && (a.granted || (a.waiting && outranks a c)) && s.conflict c a

def State.claim? (s : State) (id : Nat) : Option Claim := s.claims.find? fun c => c.id == id

/-- Length of the claim wait of an engine (R101), counted when it ends. -/
def State.endClaimWait (s : State) (e : EngineId) : State :=
  match s.engines[e].wait with
  | .claim since =>
    if s.eff e = .yielding then
      let d := s.tick - since
      if s.nat (engIx 0x3005 e) 2 < d then s.put (engIx 0x3005 e) 2 d else s
    else s
  | _ => s

/-- An engine takes a granted claim and goes on (Table 3.2). -/
def State.grantTo (s : State) (e : EngineId) (id : Nat) : State :=
  let s := s.endClaimWait e
  let s := (s.modClaim id fun c => { c with granted := true, waiting := false, dueAt := none }).modEngine e fun g =>
    { g with claimId := some id, claimGranted := true, wait := .none }
  if s.eff e = .yielding then s.setEff e .running 0 else s

/-- A claim is refused: it waits for the claims it conflicts with (R99). -/
def State.waitFor (s : State) (c : Claim) : State :=
  let ids := (s.blockers c).map (·.id)
  s.modClaim c.id fun x => { x with waiting := true, dueAt := none, blockedBy := ids }

/-- The claim is not granted: the engine yields (Table 3.2, R101). -/
def State.refuse (s : State) (e : EngineId) (c : Claim) : State :=
  let s := s.waitFor c
  if s.eff e = .yielding then s
  else ((s.setEff e .yielding 0).modEngine e fun g => { g with wait := .claim s.tick }).bumpE e 0x3005 1

/-- The next member of a group after a refusal: the engine withdraws the claim and posts that of the next
unexecuted member in the next tick; when every one has been refused in the pass it waits on the lowest (R103). -/
def State.repostMember (s : State) (e : EngineId) (gr : Group) (c : Claim) : State :=
  let gr := { gr with refused := gr.refused ++ [gr.current] }
  let s := s.refuse e c
  let since := match s.engines[e].wait with | .claim t => t | _ => s.tick
  let post := fun (i : Nat) (gr : Group) (s : State) =>
    let s := ({ s with claims := s.claims.filter fun x => x.id != c.id } : State).modEngine e fun g =>
      { g.toMember gr i with ppOffset := gr.members.getD i gr.endOffset }
    match s.engines[e].rest with
    | .jump _ x y :: t =>
      (match unitAhead t with
       | some ws => s.claimUnitAt e x y ws (s.tick + 1)
       | none => s).modEngine e fun g => { g with wait := .claim since }
    | _ => s
  match gr.nextAfter gr.current gr.refused with
  | some i => post i { gr with outOfOrder := true } s
  | none =>
    let low := gr.left.headD gr.current
    if low = gr.current then s.modEngine e fun g => { g with group := some { gr with refused := [] } }
    else post low { gr with refused := gr.left } s

/-- A claim of engine e is decided (R99). One that CE12 has taken over and not yet reached is granted or waits without
the engine (R176). -/
def State.decideClaim (s : State) (e : EngineId) (c : Claim) : State :=
  if s.engines[e].claimId != some c.id then
    if (s.blockers c).isEmpty then s.modClaim c.id fun c => { c with granted := true, waiting := false, dueAt := none }
    else s.waitFor c
  else if (s.blockers c).isEmpty then s.grantTo e c.id
  else
    match s.engines[e].group with
    | some gr =>
      if !c.waiting && !gr.refused.contains gr.current && 1 < gr.left.length then s.repostMember e gr c
      else s.refuse e c
    | none => s.refuse e c

/-- A waiting claim whose blockers changed in this tick is decided in the next (R99). -/
def State.noteBlockers (s : State) : State :=
  { s with claims := s.claims.map fun c =>
      if c.waiting && c.dueAt.isNone && (s.blockers c).map (·.id) != c.blockedBy then
        { c with dueAt := some (s.tick + 1), blockedBy := (s.blockers c).map (·.id) }
      else c }

/-- The engine leaves its own context, which stands before its next block: a stolen block is under execution, and one
moves no context (R156). -/
def State.setAside (s : State) (e : EngineId) (n : Nat) : State :=
  let g := s.engines[e]
  let own := (g.ready.drop 1).filter fun b => !b.stolen
  let slot := saveSlotFor s.contexts e
  (s.modCtx n fun x =>
    { x with
      st := .preempted, saveSlot := slot, inUnit := false, brk := false, stopX := bedUnit g.stopX, stopY := bedUnit g.stopY
      stopTick := s.tick, markFraction := 0, wordOffset := 0, blockAddress := (own.head?.map (·.address)).getD x.blockAddress
      partId := 0, featureTag := 0, preemptCount := x.preemptCount + 1, ran := 0, jumped := false
      area := some { g.area 0 with group := none, seam := none }, kept := own, readyAt := s.tick }).modEngine e fun g =>
    { g with ctx := none }

/-- Park an engine that stands at a pre-emption point (R101, R109): the rest of its block from that point is
re-queued and its context saved. -/
def State.park (s : State) (e : EngineId) (cause : Nat) (claimId : Option Nat) (token : Option (Nat × Nat))
    (seamWait : Option (Nat × Nat)) : State :=
  let g := s.engines[e]
  match g.buf.head? with
  | none => s.setEff e .parked cause
  | some b =>
    let off := if token.isSome || seamWait.isSome then g.wordOff else g.ppOffset
    let s := s.modEngine e fun g =>
      { g with wordOff := off, par := { replayParams g.words off with partId := g.par.partId, featureTag := g.par.featureTag }
               wait := .none, stopTick := s.tick
               -- an exposure unit not yet taken up again keeps its stop (R160)
               stopX := if g.stopInUnit then g.stopX else g.here.1, stopY := if g.stopInUnit then g.stopY else g.here.2
               stopFraction := if g.stopInUnit then g.stopFraction else 0
               stopDwell := if g.stopInUnit then g.stopDwell else 0
               parkAtPoint := false, claimId := none, claimGranted := false }
    let g := s.engines[e]
    let r : Remainder :=
      { engine := e.val, ctx := b.ctx, block := b, wordOffset := off, area := g.area g.stopDwell, claimId := claimId,
        token := token, seamWait := seamWait, stopX := g.stopX, stopY := g.stopY, inUnit := g.stopInUnit,
        markX0 := g.stopMarkX0, markY0 := g.stopMarkY0, breakTo := g.breakTo, ran := g.ranFor, jumped := g.firstJumpDone }
    let held := token.isSome || seamWait.isSome
    let left := g.ready.drop 1
    let s := if b.stolen then
        match g.ctx with
        | some c => s.setAside e c.val
        | none => s
      else
        let s := s.saveContext e (saveSlotFor s.contexts e) fun x => { x with kept := x.kept.filter fun k => !k.stolen }
        if held then s.modCtx b.ctx fun x => { x with st := .blocked, before := .preempted, blockedCause := 2 } else s
    -- further stolen blocks stay with the thief (R106)
    let s := s.modEngine e fun g =>
      { g with buf := left.filter (·.stolen), wordOff := 0, ppOffset := 0, group := none, seam := none, stopInUnit := false, breakTo := none }
    let s := { s with remainders := s.remainders ++ [r] }
    let s := (s.setEff e .parked cause).bumpE e 0x3005 3
    s.emit 0x2802 e.val [e.val, b.ctx, b.address, off]

/-- An engine that must park at a pre-emption point and stands at one does so (R101). -/
def State.parkIfDue (s : State) (e : EngineId) : State :=
  if s.engines[e].parkAtPoint && s.engines[e].standsAtPoint && (s.eff e == .running || s.eff e == .yielding) then
    ((s.endClaimWait e).dropClaims e).park e 0x0309 none none none
  else s

/-- The context has a re-queued remainder waiting, so it is not selected meanwhile; the remainder of a stolen block
stops no context (R156). -/
def State.hasRemainder (s : State) (c : Nat) : Bool := s.remainders.any fun r => r.ctx == c && !r.block.stolen

/-- The wait bound of R101: 5,120 ticks from the refusal; a grant in the same tick proceeds (R27). Record 0x2801: the
engine, then engine, priority and rank of each blocker, and how many rank below it. -/
def State.waitBoundExpire (s : State) (e : EngineId) (c : Claim) : State :=
  let bl := s.blockers c
  let low := bl.filter fun b => outranks c b && !b.held
  let s := s.emit 0x2801 e.val
    ([(e.val : Int), c.priority, c.rank] ++ (bl.flatMap fun b => [(b.engine : Int), b.priority, b.rank]) ++ [(low.length : Int)])
  let s := s.endClaimWait e
  let s := s.modClaim c.id fun c => { c with held := true, waiting := true, blockedBy := bl.map (·.id) }
  let s := s.park e 0x0309 (some c.id) none none
  State.foldFin 13 s fun b s =>
    if low.any fun x => x.engine == b.val then
      let t := s.modEngine b fun g => { g with parkAtPoint := true }
      if s.eff b = .yielding then t.parkIfDue b else t
    else s

/-- Engines in the order of their ranks (R98, R180). -/
def State.byRank (s : State) : List EngineId :=
  (List.range 13).flatMap fun n => (List.finRange 13).filter fun e => s.rankOf e == n

/-- Engines that may take a remainder, in the order of R102 (R186: any eligible engine in service). -/
def State.takers (s : State) (r : Remainder) : List EngineId :=
  let parked := fun (e : EngineId) => s.eff e == .parked && !reserveInUse s.contexts e
  let fits := fun (e : EngineId) =>
    (s.engines[e].routed.map fun p => eligible r.block.header p.val).getD false
  let own := s.byRank.filter fun e => e.val == r.engine && parked e && !r.anyEngine
  let others := s.byRank.filter fun e =>
    e.val != r.engine && parked e && fits e && (stealable r.block.header || r.anyEngine)
  own ++ others

/-- A remainder goes to an engine, which continues it (R102, R160). Its own engine takes the context up again; another
engine, or the thief of a stolen block, runs the block as a stolen one. -/
def State.assign (s : State) (r : Remainder) (e : EngineId) : State :=
  let back := e.val == r.engine && !r.block.stolen
  let ctx := (assocGet r.ctx s.contexts)
  let kept := match ctx with | some c => c.kept | none => []
  let s := { s with remainders := s.remainders.filter fun x => x != r }
  let s := if r.anyEngine then (s.bump 0x3C10 7).emit 0x3406 e.val [r.engine, r.block.address, e.val] else s
  let s := s.modEngine e fun g =>
    ({ g with
      buf := if back then (if kept.isEmpty then [r.block] else kept) else { r.block with stolen := true } :: g.buf
      wordOff := r.wordOffset, par := r.area.par, group := r.area.group, seam := r.area.seam
      ctx := if back then (if h : r.ctx < 512 then some ⟨r.ctx, h⟩ else none) else g.ctx
      stopInUnit := r.inUnit, stopX := r.stopX, stopY := r.stopY, stopMarkX0 := r.markX0, stopMarkY0 := r.markY0
      ppOffset := r.wordOffset, stopDwell := r.area.dwellRemaining, backTo := some (r.stopX, r.stopY)
      gateSincePoint := false, inSegment := false, wait := .none, breakTo := r.breakTo
      claimId := r.claimId, claimGranted := r.claimId.isSome } : Engine).runsOn r.jumped r.ran
  let s := match r.claimId with
    | some id => s.modClaim id fun c =>
        { c with granted := true, waiting := false, dueAt := none, held := false, engine := e.val }
    | none => s
  let s := if r.block.stolen then s
    else if back then
      s.modCtx r.ctx fun c => { c with st := .running, engine := e.val, saveSlot := 255, area := none, kept := [], blockedCause := 0 }
    else
      -- the context goes on at its next block; the last of a layer ends its work there
      s.modCtx r.ctx fun c =>
        { c with st := if lastInLayer r.block.header then .loaded else .preempted, blockedCause := 0, listIndex := c.nextIndex, wordOffset := 0, inUnit := false,
                 area := none, saveSlot := 255, ran := 0, jumped := false, kept := c.kept.drop 1 }
  s.setEff e .running 0

/-- The condition of a held remainder holds (R109). -/
def State.remainderReady (s : State) (r : Remainder) : Bool :=
  match r.token with
  | some (t, n) => s.tokenReached t n
  | none =>
    match r.seamWait with
    | some (t, id) => s.seamIn t id
    | none => true

/-- Take a SeamID out of a mailbox (R112). -/
def Token.takeSeam (t : Token) (id : Nat) : Token :=
  { t with mailbox := t.mailbox.eraseP fun m => m.1 == id }

/-- The claim rectangle of the unit that a remainder begins with, and whether a SEAM MARK lies in it; a unit broken off
or stopped in begins at its restart point (R92, R160). -/
def Remainder.unit (r : Remainder) : Option (Rect × Bool) :=
  let ws := r.block.words.drop r.wordOffset
  let (rx, ry, _) := restartPoint r.stopX r.stopY r.markX0 r.markY0
  match r.breakTo, ws with
  | some b, _ => some (breakRect rx ry b ws, b.seam || seamInSegment ws)
  | none, .jump _ x y :: t => (unitAhead t).map fun ws => (unitRect x y ws, unitHasSeam ws)
  | none, ws => (unitAhead ws).map fun u =>
      let (x, y) := if r.inUnit then (bedUnit rx, bedUnit ry) else (bedUnit r.stopX, bedUnit r.stopY)
      (unitRect x y u, unitHasSeam u)

/-- Remainders that hold no claim: once the condition holds and an engine of R102 is PARKED, the first claim is posted
for that engine, held for the remainder (R102, R109); one that needs no claim is assigned. -/
def State.postFree (s : State) (r : Remainder) : State :=
  if r.claimId.isSome || !s.remainderReady r then s
  else
    match s.takers r with
    | [] => s
    | e :: _ =>
      let prio := match assocGet r.ctx s.contexts with | some c => c.priority | none => 0
      match r.unit with
      | none => s.assign r e
      | some (rect, seam) =>
        let c : Claim :=
          { id := s.claimSerial, engine := e.val, rect := rect, priority := prio, rank := s.rankOf e,
            seamId := if seam then r.area.seam.map (·.seamId) else none, posted := s.tick,
            dueAt := some (s.tick + decisionTicks), held := true }
        { s with
          claims := s.claims ++ [c], claimSerial := s.claimSerial + 1
          remainders := s.remainders.map fun x => if x = r then { r with claimId := some c.id } else x }

/-- The remainder for which a claim is held. -/
def State.remainderOf (s : State) (c : Claim) : Option Remainder := s.remainders.find? fun r => r.claimId == some c.id

/-- A claim held for a remainder is decided: on its grant the remainder goes to the first engine of R102. -/
def State.decideHeld (s : State) (c : Claim) : State :=
  match s.remainderOf c with
  | none => s
  | some r =>
    match s.takers r with
    | [] => s
    | e :: _ => if (s.blockers c).isEmpty then s.assign r e else s.waitFor c

/-- A decision on the claim is due; one held for a remainder waits until an engine of R102 is PARKED. -/
def State.decisionDue (s : State) (c : Claim) : Bool :=
  !c.granted && (c.dueAt.any fun t => decide (t ≤ s.tick))
    && (!c.held || match s.remainderOf c with | some r => !(s.takers r).isEmpty | none => false)

/-- The highest of some claims (R98). -/
def highest (l : List Claim) : Option Claim :=
  l.foldl (fun b x => match b with | none => some x | some y => some (if outranks x y then x else y)) none

/-- The one decision of a tick (R99): waiting claims whose blockers changed in the tick before come first, then claims
newly arrived, the highest rank first. -/
def State.nextDecision (s : State) : Option Claim :=
  (highest (s.claims.filter fun c => c.waiting && s.decisionDue c)).or
    (highest (s.claims.filter fun c => !c.waiting && s.decisionDue c))

/-- Remainders that can be taken up without waiting for the arbiter are, while the build runs (R102). -/
def State.assignRemainders (s : State) : State :=
  if s.modState = .building then s.remainders.foldl (fun s r => s.postFree r) s else s

/-- One signal of an outgoing seam half (R112): its SeamID enters the mailbox and the count advances. -/
def State.signalSeam (s : State) (e : EngineId) (t : Nat) (h : SeamHalf) : State :=
  if ht : h.token < 64 then
    let tok := s.tokens[h.token]
    let full := decide (32 ≤ tok.mailbox.length)
    let s := if full then s.emit 0x2806 e.val [h.token, (tok.mailbox.headD (0, 0, 0, 0)).1] else s
    s.modToken ⟨h.token, ht⟩ fun k =>
      { k.advance t with mailbox := (if full then k.mailbox.drop 1 else k.mailbox) ++ [(h.seamId, e.val, h.overlap, t)] }
  else s

/-- Signals of outgoing seams whose tick has come (R112). -/
def State.seamSignals (s : State) : State :=
  State.foldFin 13 s fun e s =>
    let due := s.engines[e].seamDue.filter fun x => decide (x.1 ≤ s.tick)
    if due.isEmpty then s
    else
      due.foldl (fun s x => s.signalSeam e x.1 x.2)
        (s.modEngine e fun g => { g with seamDue := g.seamDue.filter fun x => !decide (x.1 ≤ s.tick) })

/-- The context that an engine without a running one would run next: the best of those assigned to it; one that
waits for the next layer counts between layers. -/
def State.contextAhead (s : State) (e : EngineId) : Option (Nat × Context) :=
  (s.contexts.filter fun (n, c) =>
      (c.st == .ready || c.st == .preempted || (c.st == .loaded && !s.layer.running)) && c.owner == e.val
        && !s.hasRemainder n).foldl
    (fun b x => match b with | none => some x | some y => some (if goesBefore x y then x else y)) none

/-- Stated time of decoded blocks (R20). -/
def statedTime (l : List Block) : Nat := (l.map fun x => if x.placeholder then 0 else x.header.execTime).sum

/-- Plan time still to run of what an engine has planned. -/
def Engine.plannedAhead (g : Engine) (now : Nat) : Nat :=
  (g.plan.map fun m => m.t0 + m.dur - max m.t0 now).sum

/-- Remaining execution time of an engine in updates (R20): what is planned and not yet run, and the stated times of
the contiguous run of its decoded blocks, the executing block at its part not yet planned. A block behind a gap does
not count, nor do blocks kept for other contexts (R158). -/
def State.bufferedUpdates (s : State) (e : EngineId) : Nat :=
  let g := s.engines[e]
  g.plannedAhead (upd * s.update) / upd
    + match g.ready with
      | [] => 0
      | b :: t => (if b.placeholder then 0 else b.header.execTime - g.ranFor) + statedTime t

/-- Buffered time in µs (0x3002.01). -/
def State.bufferedTime (s : State) (e : EngineId) : Nat := s.bufferedUpdates e / 2

/-- Owners whose pending blocks an engine may take (R105, R186). -/
def State.ownerOpen (s : State) (o : EngineId) : Bool :=
  (decide (0 < s.armNat 0x2802 1)
      && (decide (s.armNat 0x2802 1 ≤ s.bufferedTime o) || ((s.engines[o].routed.map fun p => !s.lasers[p].available).getD false)))
    || s.engines[o].st == .fault

/-- Blocks of a failed engine that lie on chip and that engine e may take, the remainder of its current block among them:
they come before its list (R186). -/
def State.remainderFirst (s : State) (e o : EngineId) : Bool :=
  match s.engines[e].routed with
  | none => false
  | some p => s.remainders.any fun r => r.anyEngine && r.engine == o.val && eligible r.block.header p.val

/-- The pending blocks of the layer under way that an engine may take (R105, R186). -/
def State.candidates (s : State) (e : EngineId) : List (Nat × EngineId × Nat × Nat × ListEntry) :=
  match s.engines[e].routed with
  | none => []
  | some p =>
    s.contexts.flatMap fun (n, c) =>
      (List.finRange 13).flatMap fun o =>
        if o = e || c.engine != o.val && !(c.engine == 255 && c.homeEngine == o.val) || !s.ownerOpen o || s.remainderFirst e o
            || c.st == .free || c.st == .done || c.st == .aborted then []
        else
          let fault := s.engines[o].st == .fault
          (s.pendingFrom c s.layer.number 65536 (s.nextEntry o n c)).filterMap fun (i, l, h) =>
            if ((stealable h && !lastInLayer h) || fault) && eligible h p.val then some (l.sequence, o, n, i, l)
            else none

/-- The lower (Sequence, owner) of two candidates; CE12 ranks as the engine it stands in for (R105, R180). -/
def State.better (s : State) (a b : Nat × EngineId × Nat × Nat × ListEntry) : Bool :=
  decide (a.1 < b.1) || (a.1 == b.1 && decide (s.rankOf a.2.1 < s.rankOf b.2.1))

/-- One steal attempt (R105, R106): the state and whether a block was taken. -/
def State.steal (s : State) (e : EngineId) : State × Bool :=
  if reserveInUse s.contexts e then (s, false)
  else
    match (s.candidates e).foldl (fun (b : Option _) x =>
        match b with | none => some x | some y => some (if s.better x y then x else y)) none with
    | none => (s, false)
    | some (sq, o, n, i, l) =>
      let sp := match assocGet n s.contexts with | some c => c.space | none => 0
      let s := s.modCtx n fun c => { c with taken := c.taken ++ [i] }
      let s := s.modEngine e fun g => { g with stolenQ := g.stolenQ ++
        [{ ctx := n, listIndex := i, address := l.address, sequence := sq, lastOfList := l.listEnd, stolen := true, space := sp }] }
      let s := (s.bumpE e 0x3005 4).bumpE o 0x3005 5
      let s := if s.engines[o].st = .fault then (s.bump 0x3C10 7).emit 0x3406 e.val [o.val, l.address, e.val] else s
      (s.emit 0x2803 e.val [e.val, o.val, l.address, sq], true)

/-- CLAIM_DECISION: the arbiter's decision of the tick, when it falls on a claim posted by engine e (R99, R102); an
engine that yields for a Q_CLAIM credit goes on once one has come back (R19). -/
def execClaimDecision (e : EngineId) (s : State) : Out :=
  let s := if s.engines[e].wait == .credit && s.claimCredit e then
      (s.setEff e .running 0).modEngine e fun g => { g with wait := .none }
    else s
  match s.nextDecision with
  | some c =>
    if c.engine != e.val || s.decidedAt == some s.tick then .next s
    else
      let s := { s with decidedAt := some s.tick }
      if c.held then .next (s.decideHeld c)
      else .next ((if c.waiting then s else s.freeCredit 3 e.val).decideClaim e c)
  | none => .next s

/-- KEEPOUT_RELEASE: claims of engine e whose keep-out part has run out leave the arbiter (R94). -/
def execKeepoutRelease (e : EngineId) (s : State) : Out :=
  .next { s with claims := s.claims.filter fun c => c.engine != e.val || c.keepHeld s.tick s.persist }

/-- WAIT_BOUND: a claim wait reaches 5,120 ticks (R101). A grant in that tick proceeds (R100); so does a claim whose last
blocker was released in it (Table 4.3's closing words). -/
def execWaitBound (e : EngineId) (s : State) : Out :=
  match s.engines[e].wait, s.engines[e].claimId.bind s.claim? with
  | .claim since, some c =>
    if s.eff e != .yielding || decide (s.tick < since + 5120) then .next s
    else if (s.blockers c).isEmpty then .next (s.grantTo e c.id)
    else .next (s.waitBoundExpire e c).assignRemainders
  | _, _ => .next s

/-- The threshold below which an engine takes blocks (R105); 0 selects none, but the list of an engine in FAULT is taken
by an engine whose buffer has run out (R186). -/
def State.stealBelow (s : State) : Nat :=
  if (List.finRange 13).any fun o => s.engines[o].st == .fault then max 1 (s.armNat 0x2802 1) else s.armNat 0x2802 1

/-- STEAL_ATTEMPT: an engine below StealThreshold takes a block; attempts repeat every 80,000 ticks while it stays
below (R105). -/
def execStealAttempt (e : EngineId) (s : State) : Out :=
  let due := match s.engines[e].stealAt with | some t => decide (t ≤ s.tick) | none => true
  if s.bufferedTime e < s.stealBelow then
    if (s.eff e == .running || s.eff e == .parked) && due then
      let (s, got) := s.steal e
      .next (s.modEngine e fun g => { g with stealAt := some (s.tick + 80000), stealEmpty := !got })
    else .next s
  else .next (s.modEngine e fun g => { g with stealAt := none })

end Sys2Proof.Machine
end

