-- ==== Sys2Proof/Machine/Inflate.lean ====
section
/-!
DEFINITION. The inflater (R318, R319): raw DEFLATE of RFC 1951 with stored, fixed and dynamic blocks; none for
what fails check 0x11 of Table 2.6.
-/
namespace Sys2Proof.Machine

/-- The stream: bits read ahead, how many, and the octets behind them. -/
structure BitSrc where
  acc : Nat
  cnt : Nat
  rest : Bytes
  deriving DecidableEq, Repr

/-- Take octets until n bits are ahead. -/
def BitSrc.fill (n : Nat) : Nat → BitSrc → Option BitSrc
  | 0, b => if n ≤ b.cnt then some b else none
  | f + 1, b =>
    if n ≤ b.cnt then some b
    else
      match b.rest with
      | [] => none
      | x :: t => BitSrc.fill n f ⟨b.acc + x.toNat * 2 ^ b.cnt, b.cnt + 8, t⟩

/-- The next n bits (n ≤ 16), least significant first. -/
def BitSrc.take (b : BitSrc) (n : Nat) : Option (Nat × BitSrc) :=
  (b.fill n 3).map fun b => (b.acc % 2 ^ n, ⟨b.acc / 2 ^ n, b.cnt - n, b.rest⟩)

/-- Drop the bits up to the next octet boundary. -/
def BitSrc.align (b : BitSrc) : BitSrc := let k := b.cnt % 8; ⟨b.acc / 2 ^ k, b.cnt - k, b.rest⟩

/-- A canonical code: how many codes have each length 1–15, and the symbols in code order. -/
structure Huff where
  counts : List Nat
  symbols : List Nat
  deriving DecidableEq, Repr

/-- The code of a list of code lengths. -/
def huffOf (lens : List Nat) : Huff :=
  { counts := (List.range 15).map fun i => (lens.filter fun l => l == i + 1).length
    symbols := (List.range 15).flatMap fun i =>
      (lens.zipIdx.filter fun p => p.1 == i + 1).map (·.2) }

/-- Codes left unused after each length; none when over-subscribed. -/
def huffLeft : List Nat → Nat → Option Nat
  | [], left => some left
  | c :: t, left => if c ≤ 2 * left then huffLeft t (2 * left - c) else none

/-- A code set is complete, or a single code of one bit (RFC 1951, 3.2.7). -/
def huffValid (h : Huff) : Bool :=
  match huffLeft h.counts 1 with
  | none => false
  | some 0 => true
  | some _ => h.symbols.length ≤ 1 && h.counts.headD 0 == h.symbols.length

/-- Decode one symbol. -/
def huffDecode (syms : List Nat) : List Nat → Nat → Nat → Nat → BitSrc → Option (Nat × BitSrc)
  | [], _, _, _, _ => none
  | c :: t, code, first, index, b =>
    match b.take 1 with
    | none => none
    | some (x, b) =>
      let code := code + x
      if code < first + c then (syms[index + (code - first)]?).map fun s => (s, b)
      else huffDecode syms t (2 * code) (2 * (first + c)) (index + c) b

def Huff.next (h : Huff) (b : BitSrc) : Option (Nat × BitSrc) := huffDecode h.symbols h.counts 0 0 0 b

def lengthBase : List Nat :=
  [3, 4, 5, 6, 7, 8, 9, 10, 11, 13, 15, 17, 19, 23, 27, 31, 35, 43, 51, 59, 67, 83, 99, 115, 131, 163, 195, 227, 258]
def lengthExtra : List Nat :=
  [0, 0, 0, 0, 0, 0, 0, 0, 1, 1, 1, 1, 2, 2, 2, 2, 3, 3, 3, 3, 4, 4, 4, 4, 5, 5, 5, 5, 0]
def distBase : List Nat :=
  [1, 2, 3, 4, 5, 7, 9, 13, 17, 25, 33, 49, 65, 97, 129, 193, 257, 385, 513, 769, 1025, 1537, 2049, 3073, 4097,
   6145, 8193, 12289, 16385, 24577]
def distExtra : List Nat :=
  [0, 0, 0, 0, 1, 1, 2, 2, 3, 3, 4, 4, 5, 5, 6, 6, 7, 7, 8, 8, 9, 9, 10, 10, 11, 11, 12, 12, 13, 13]

/-- Copy n octets from distance d; the output is kept newest first. -/
def copyMatch (d : Nat) : Nat → Bytes → Option Bytes
  | 0, out => some out
  | n + 1, out =>
    match out[d - 1]? with
    | none => none
    | some x => copyMatch d n (x :: out)

/-- The symbols of one block up to its end code; at most `limit` octets of output (R319). -/
def inflateCodes (lit dist : Huff) (limit : Nat) : Nat → BitSrc → Bytes → Nat → Option (BitSrc × Bytes × Nat)
  | 0, _, _, _ => none
  | f + 1, b, out, n =>
    match lit.next b with
    | none => none
    | some (sym, b) =>
      if sym < 256 then
        if n < limit then inflateCodes lit dist limit f b (BitVec.ofNat 8 sym :: out) (n + 1) else none
      else if sym = 256 then some (b, out, n)
      else
        match lengthBase[sym - 257]?, lengthExtra[sym - 257]? with
        | some lb, some le =>
          match b.take le with
          | none => none
          | some (lx, b) =>
            match dist.next b with
            | none => none
            | some (ds, b) =>
              match distBase[ds]?, distExtra[ds]? with
              | some db, some de =>
                match b.take de with
                | none => none
                | some (dx, b) =>
                  let len := lb + lx
                  let d := db + dx
                  if d ≤ n ∧ n + len ≤ limit then
                    match copyMatch d len out with
                    | some out => inflateCodes lit dist limit f b out (n + len)
                    | none => none
                  else none
              | _, _ => none
        | _, _ => none

/-- The fixed codes (RFC 1951, 3.2.6). -/
def fixedLit : Huff :=
  huffOf (List.replicate 144 8 ++ List.replicate 112 9 ++ List.replicate 24 7 ++ List.replicate 8 8)
def fixedDist : Huff := huffOf (List.replicate 30 5)

/-- Code lengths of a dynamic header, with repeats (RFC 1951, 3.2.7). -/
def readLengths (cl : Huff) (total : Nat) : Nat → BitSrc → List Nat → Option (BitSrc × List Nat)
  | 0, _, _ => none
  | f + 1, b, acc =>
    if acc.length = total then some (b, acc)
    else
      match cl.next b with
      | none => none
      | some (sym, b) =>
        let rep := fun (v base bits : Nat) =>
          match b.take bits with
          | none => none
          | some (x, b) =>
            if acc.length + base + x ≤ total then readLengths cl total f b (acc ++ List.replicate (base + x) v)
            else none
        if sym < 16 then readLengths cl total f b (acc ++ [sym])
        else if sym = 16 then (match acc.getLast? with | some v => rep v 3 2 | none => none)
        else if sym = 17 then rep 0 3 3
        else rep 0 11 7

def clOrder : List Nat := [16, 17, 18, 0, 8, 7, 9, 6, 10, 5, 11, 4, 12, 3, 13, 2, 14, 1, 15]

/-- n code-length code lengths of 3 bits. -/
def readCl : Nat → BitSrc → List Nat → Option (BitSrc × List Nat)
  | 0, b, acc => some (b, acc)
  | n + 1, b, acc =>
    match b.take 3 with
    | none => none
    | some (x, b) => readCl n b (acc ++ [x])

/-- The two codes of a dynamic block. -/
def dynamicHeader (b : BitSrc) : Option (BitSrc × Huff × Huff) := do
  let (hlit, b) ← b.take 5
  let (hdist, b) ← b.take 5
  let (hclen, b) ← b.take 4
  let (b, cls) ← readCl (hclen + 4) b []
  let lens := (List.range 19).map fun s =>
    match clOrder.idxOf? s with
    | some i => cls.getD i 0
    | none => 0
  let cl := huffOf lens
  if !huffValid cl || hlit > 29 || hdist > 29 then none
  else
    let (b, all) ← readLengths cl (hlit + 257 + hdist + 1) 320 b []
    let lit := huffOf (all.take (hlit + 257))
    let dist := huffOf (all.drop (hlit + 257))
    if huffValid lit && huffValid dist && all.getD 256 0 != 0 then some (b, lit, dist) else none

/-- The blocks of a stream up to the one with BFINAL. -/
def inflateBlocks (limit : Nat) : Nat → BitSrc → Bytes → Nat → Option (BitSrc × Bytes × Nat)
  | 0, _, _, _ => none
  | f + 1, b, out, n =>
    match b.take 3 with
    | none => none
    | some (x, b) =>
      let fin := x % 2 == 1
      let r := match x / 2 with
        | 0 =>
          let b := b.align
          match b.take 16 with
          | none => none
          | some (len, b) =>
            match b.take 16 with
            | none => none
            | some (nlen, b) =>
              -- after the alignment and two 16-bit fields no partial octet is ahead
              if len + nlen ≠ 65535 ∨ b.cnt ≠ 0 ∨ b.rest.length < len ∨ limit < n + len then none
              else some (⟨0, 0, b.rest.drop len⟩, (b.rest.take len).reverse ++ out, n + len)
        | 1 => inflateCodes fixedLit fixedDist limit (limit + 1) b out n
        | 2 =>
          match dynamicHeader b with
          | none => none
          | some (b, lit, dist) => inflateCodes lit dist limit (limit + 1) b out n
        | _ => none
      match r with
      | none => none
      | some (b, out, n) => if fin then some (b, out, n) else inflateBlocks limit f b out n

/-- Inflate a payload to exactly n octets (R30, R318): nothing may follow the last block but the padding of
its octet. -/
def inflate (src : Bytes) (n : Nat) : Option Bytes :=
  match inflateBlocks (min n 65536) (src.length + 1) ⟨0, 0, src⟩ [] 0 with
  | some (b, out, k) => if k = n ∧ b.rest = [] ∧ b.cnt < 8 then some out.reverse else none
  | none => none

end Sys2Proof.Machine
end

