-- ==== Sys2Proof/Machine/Checker.lean ====
section
/-!
DEFINITION. The word checker in the inflater's output path: checks 0x10 to 0x1C of Table 2.6 over a whole
block (R50), and the checks of ARM over every list and header, 0x01 to 0x08 (R49).
-/
namespace Sys2Proof.Machine

/-- What the checker knows of the block it checks. -/
structure CheckCtx where
  header : BlockHeader
  lastOfList : Bool
  count : Nat
  /-- bed half width and half depth, and the field regions of the lasers in the mask (R89, R90) -/
  bedX : Int
  bedY : Int
  regions : List Rect
  /-- smallest focus half-range of the heads in the mask, 0.1 µm; none when no head has a record -/
  focusMax : Option Int
  seamDefault : Nat
  deriving DecidableEq, Repr

/-- What the checker tracks from word to word (R50). -/
structure CheckSt where
  par : Params := {}
  prologue : List Nat := []
  pos : Option (Int × Int) := none
  moved : Bool := false
  inSegment : Bool := false
  /-- a MARK may open a segment here (R36) -/
  opener : Bool := false
  since : Nat := 0
  group : Option Nat := none
  members : Nat := 0
  afterGroup : Bool := false
  groups : Bool := false
  /-- SEAM word awaiting its MARK -/
  seam : Option (Bool × Nat) := none
  /-- an outgoing seam MARK has been run in this segment: no MARK may follow (R110) -/
  outDone : Bool := false
  marksInSegment : Nat := 0
  finished : Bool := false
  deriving DecidableEq, Repr

/-- Number of a parameter word among the seven of the prologue. -/
def paramIndex : VWord → Option Nat
  | .setMarkSpeed _ => some 0 | .setJumpLimits .. => some 1 | .setPower _ => some 2 | .setFocus _ => some 3
  | .setLaserDelays .. => some 4 | .setCorner .. => some 5 | .setpoint .. => some 6
  | _ => none

/-- The word after the end of a group (R42). -/
def afterGroupOk : VWord → Bool
  | .jump .. | .group true _ | .layerEnd _ | .endWord => true
  | _ => false

/-- Words permitted inside a group (R42). -/
def inGroupOk : VWord → Bool
  | .jump .. | .preempt | .label .. => true
  | .mark _ seam _ _ _ => !seam
  | _ => false

/-- A target lies on the bed and in every field region of the mask (R89, R90); templates are checked at
injection (R46). -/
def targetOk (c : CheckCtx) (x y : Int) : Bool :=
  isTemplate c.header
    || (decide (-c.bedX ≤ x) && decide (x ≤ c.bedX) && decide (-c.bedY ≤ y) && decide (y ≤ c.bedY)
        && c.regions.all fun r => decide (r.x0 ≤ x) && decide (x ≤ r.x1) && decide (r.y0 ≤ y) && decide (y ≤ r.y1))

/-- A template offset within ±400,000 units (R46). -/
def offsetOk (c : CheckCtx) (x y : Int) : Bool :=
  !isTemplate c.header
    || (decide (-400000 ≤ x) && decide (x ≤ 400000) && decide (-400000 ≤ y) && decide (y ≤ 400000))

/-- Overlap of a SEAM word in bed units (R110). -/
def seamUnits (c : CheckCtx) (ov : Nat) : Nat := (if ov = 0 then c.seamDefault else ov) * 40

/-- The check code that word i fails in a tracked state; 0 when it passes. Of several failures the first word's lowest code is
reported, more than 32 words between motion words at the second of these: R50 gives no order (DESIGN CHOICE, row 102). -/
def wordCheck (c : CheckCtx) (t : CheckSt) (i : Nat) (w : VWord) : Nat :=
  let xy : Option (Int × Int) := match w with
    | .jump _ x y => some (x, y) | .mark _ _ _ x y => some (x, y) | _ => none
  let pos := t.pos.getD (0, 0)
  -- 0x14: template offsets, focus range
  if (xy.map fun p => !offsetOk c p.1 p.2).getD false then 0x14
  else if (match w, c.focusMax with | .setFocus z, some m => decide (m < z) || decide (z < -m) | _, _ => false) then 0x14
  -- 0x15: prologue
  else if i < 7 && (match paramIndex w with
      | some k => t.prologue.contains k || (match w with | .setpoint 0 _ _ _ => true | _ => false)
      | none => true) then 0x15
  -- 0x16: first motion word
  else if isMotion w && !t.moved && (match w with | .jump .. => false | _ => true) then 0x16
  -- 0x17: segment rules
  else if t.inSegment && (match w with
      | .setLaserDelays .. | .setCorner .. | .token .. | .seam .. => true | _ => false) then 0x17
  else if (match w with
      | .mark _ _ _ x y =>
        (!t.inSegment && !t.opener) || !markLongEnough (x - pos.1) (y - pos.2) t.par.markSpeed
      | _ => false) then 0x17
  -- 0x18: reorder groups
  else if t.afterGroup && !afterGroupOk w then 0x18
  else if (match w, t.group with
      | .group true _, some _ => true
      | .group false id, some g => id != g || decide (t.members < 2) || decide (64 < t.members)
      | .group false _, none => true
      | .group true _, none => false
      | w, some _ => !inGroupOk w
      | _, none => false) then 0x18
  -- 0x19: seams
  else if (match w with
      | .seam .. => t.seam.isSome
      | .mark _ sm _ x y =>
        t.outDone || (sm && (match t.seam with
          | none => true
          | some (incoming, ov) =>
            (incoming && decide (0 < t.marksInSegment))
              || decide (dist2 (x - pos.1) (y - pos.2) < ov * ov)))
      | _ => false) then 0x19
  -- 0x1A: LAYER_END and END
  else if (match w with
      | .layerEnd n =>
        !lastInLayer c.header || c.lastOfList || n != c.header.layer || i + 1 != c.count || isTemplate c.header
      | .endWord => !(isTemplate c.header || (lastInLayer c.header && c.lastOfList)) || i + 1 != c.count
      | _ => i + 1 == c.count && (lastInLayer c.header || isTemplate c.header)) then 0x1A
  -- 0x1B: bed and fields
  else if (xy.map fun p => !targetOk c p.1 p.2).getD false then 0x1B
  -- 0x1C: non-motion words between motion words
  else if t.moved && isMotion w && decide (32 < t.since) then 0x1C
  else 0

/-- The tracked state after a word that passes. -/
def wordTrack (c : CheckCtx) (t : CheckSt) (i : Nat) (w : VWord) : CheckSt :=
  let t := { t with
    par := applyParam t.par w
    prologue := if i < 7 then (match paramIndex w with | some k => k :: t.prologue | none => t.prologue) else t.prologue
    since := if isMotion w then 0 else t.since + 1
    moved := t.moved || isMotion w
    afterGroup := match w with | .group false _ => true | _ => false }
  let endSeg := fun (t : CheckSt) => { t with inSegment := false, outDone := false, marksInSegment := 0 }
  match w with
  | .jump _ x y =>
    { endSeg t with pos := some (x, y), opener := true, members := if t.group.isSome then t.members + 1 else t.members }
  | .mark _ sm _ x y =>
    { t with
      pos := some (x, y), inSegment := true, opener := false, marksInSegment := t.marksInSegment + 1
      outDone := match t.seam with | some (inc, _) => sm && !inc | none => false
      seam := if sm then none else t.seam }
  | .dwell true _ => if t.inSegment then t else { t with opener := true }
  | .dwell false _ => { endSeg t with opener := true }
  | .group b id => { endSeg t with opener := false, group := if b then some id else none, members := 0, groups := true }
  | .seam inc _ ov _ => { t with seam := some (inc, seamUnits c ov) }
  | .layerEnd _ | .endWord => { endSeg t with opener := false, finished := true }
  | _ => t

/-- Check the words from offset i on: the decoded words, or (offset, code) of the first failure. What is found missing at the
block's end has the word count for its offset, and a block with no motion word fails as 0x16: the spec says neither (DESIGN
CHOICE, row 102). -/
def checkWords (c : CheckCtx) : Nat → CheckSt → List Nat → List VWord → Except (Nat × Nat) (List VWord)
  | i, t, [], acc =>
    if t.prologue.length < 7 then .error (i, 0x15)
    else if !t.moved then .error (i, 0x16)
    else if t.group.isSome || hasGroups c.header != t.groups then .error (i, 0x18)
    else if t.seam.isSome then .error (i, 0x19)
    else if (lastInLayer c.header || isTemplate c.header) && !t.finished then .error (i, 0x1A)
    else .ok acc.reverse
  | i, t, w :: rest, acc =>
    match decodeWord w with
    | .error e => .error (i, e)
    | .ok v =>
      match wordCheck c t i v with
      | 0 => checkWords c (i + 1) (wordTrack c t i v) rest (v :: acc)
      | e => .error (i, e)

/-- Field region of a laser in force at ARM (R90, R91). -/
def State.region (s : State) (p : Nat) : Rect :=
  { x0 := s.armInt (0x2810 + p) 4, x1 := s.armInt (0x2810 + p) 5, y0 := s.armInt (0x2810 + p) 6, y1 := s.armInt (0x2810 + p) 7 }

/-- Half of the bed's width and depth in force at ARM, in bed units (R89). -/
def State.bedHalf (s : State) : Int × Int := (um (s.armNat 0x2800 1) / 2, um (s.armNat 0x2800 2) / 2)

/-- Lasers named in a mask. -/
def maskLasers (h : BlockHeader) : List (Fin 12) := (List.finRange 12).filter fun p => eligible h p.val

/-- The checker's context for a block (R50). A head in the mask that has no calibration record has no focus range, and is left
out of the SET_FOCUS check (DESIGN CHOICE, row 102). -/
def State.checkCtx (s : State) (h : BlockHeader) (lastOfList : Bool) : CheckCtx :=
  let fs := (maskLasers h).filterMap fun p =>
    (s.records[p.val]'(by have := p.isLt; omega)).map fun r => (r.f : Int) * 100
  { header := h, lastOfList := lastOfList, count := h.wordCount, bedX := s.bedHalf.1, bedY := s.bedHalf.2,
    regions := (maskLasers h).map fun p => s.region p.val
    focusMax := match fs with | [] => none | x :: t => some (t.foldl min x)
    seamDefault := s.armNat 0x2803 1 }

/-- Inflate and check a block's payload (checks 0x10 to 0x1C): its words, or (offset, code). -/
def State.checkPayload (s : State) (h : BlockHeader) (lastOfList : Bool) (payload : Bytes) :
    Except (Nat × Nat) (List VWord) :=
  match inflate payload (8 * h.wordCount) with
  | none => .error (0, 0x11)
  | some b =>
    if crc32c b ≠ h.payloadCrc then .error (0, 0x10)
    else checkWords (s.checkCtx h lastOfList) 0 {} (payloadWords h.wordCount b) []

/-- An ARM failure: check code, address, context (R49, Table 2.8). -/
abbrev ArmFail := Nat × Nat × Nat

/-- The status of a check code (Table 2.6). -/
def checkStatus (code : Nat) : Nat := if code = 0x06 then 0x0203 else 0x0204

/-- LAST_IN_LAYER of a block against the one after it (check 0x07): set exactly where the layer changes. -/
def lastRule (p h : BlockHeader) : Bool := decide (h.layer < p.layer) || (decide (p.layer < h.layer) == lastInLayer p)

/-- The rules of check 0x07 for a block after the one before it: no template, and LayerNumber does not fall. -/
def layerRule (prev : Option BlockHeader) (h : BlockHeader) : Bool :=
  !isTemplate h && prev.all fun p => decide (p.layer ≤ h.layer)

/-- Check one list from entry i on (R29, R49): at most 65,536 entries. -/
def State.armList (s : State) (n : Nat) (c : Context) : Nat → Nat → Option (ListEntry × BlockHeader) → Option ArmFail
  | 0, i, _ => some (0x08, c.listBase + 16 * i, n)
  | f + 1, i, prev =>
    let ea := c.listBase + 16 * i
    match s.listEntry c i with
    | none => some (0x08, ea, n)
    | some l =>
      if !l.reservedZero || l.address % 32 != 0 then some (0x08, ea, n)
      else
        match s.headerBytes c.space l.address with
        | none => some (0x08, ea, n)
        | some hb =>
          let h := parseHeader hb
          let code := headerCheck hb
          if prev.any fun p => code == 0 && !lastRule p.2 h then some (0x07, (prev.map (·.1.address)).getD 0, n)
          else if code ≠ 0 then some (code, l.address, n)
          else if !layerRule (prev.map (·.2)) h || (l.listEnd && !lastInLayer h) then some (0x07, l.address, n)
          else if (match prev with
              | some (pl, ph) => ph.layer == h.layer && decide (l.sequence ≤ pl.sequence)
              | none => false) then some (0x08, ea, n)
          else if l.listEnd then none
          else s.armList n c f (i + 1) (some (l, h))

/-- The first failure over every list, lists in context order (R49). -/
def State.armCheck (s : State) : List (Nat × Context) → Option ArmFail
  | [] => none
  | (n, c) :: t =>
    if c.listBase % 16 ≠ 0 then some (0x08, c.listBase, n)
    else
      match s.armList n c 65536 0 none with
      | some x => some x
      | none => s.armCheck t

end Sys2Proof.Machine
end

