-- ==== Sys2Proof/Machine/Values.lean ====
section
/-!
DEFINITION. Entry values as octets (R277), default octet strings, the records of profile images (R282) and of
the dictionary description (R280).
-/
namespace Sys2Proof.Machine

/-- An index within a family of entries: instance, for a base, a step and a count. -/
def within (base step count index : Nat) : Option (Fin count) :=
  if index < base then none
  else if (index - base) % step ≠ 0 then none
  else if h : (index - base) / step < count then some ⟨(index - base) / step, h⟩ else none

/-- Natural size of a numeric type in octets; 0 for STR and DOM (R277). -/
def typeSize : EType → Nat
  | .bool | .u8 => 1 | .u16 | .i16 | .q15 => 2 | .u32 | .i32 => 4 | .u64 | .i64 => 8 | .str | .dom => 0

/-- Type codes of Table 12.6. -/
def typeCode : EType → Nat
  | .bool => 1 | .u8 => 2 | .u16 => 3 | .u32 => 4 | .u64 => 5 | .i16 => 6 | .i32 => 7 | .i64 => 8 | .q15 => 9
  | .str => 0x0B | .dom => 0x0C

def accessCode : Access → Nat
  | .ro => 1 | .rw => 2 | .wo => 3 | .rwb => 4 | .rws => 5

def isSigned : EType → Bool
  | .i16 | .i32 | .i64 | .q15 => true
  | _ => false

/-- The octets of a numeric value at its natural size. -/
def encodeValue (t : EType) (v : Int) : Bytes := leBytes (typeSize t) (unsigned (8 * typeSize t) v)

/-- The value that octets spell. -/
def decodeValue (t : EType) (b : Bytes) : Int :=
  if isSigned t then signed (8 * typeSize t) (leNat b) else leNat b

/-- The grey ramp of Palette: 256 entries of 4 octets, each colour equal to the index (Table 10.4). -/
def greyRamp : Bytes :=
  (List.range 256).flatMap fun i => [BitVec.ofNat 8 i, BitVec.ofNat 8 i, BitVec.ofNat 8 i, 0]

/-- Default octets of STR and DOM entries: empty but where a table gives others. -/
def defaultBlob (index sub : Nat) : Bytes :=
  if (index = 0x1013 ∨ index = 0x1014) ∧ sub = 4 then List.replicate 16 0
  else if index = 0x1015 ∧ sub = 2 then
    [0xFF, 0x15, 0, 0, 0, 0, 0, 0, 0, 0, 0, 0, 0, 0, 0x49, 0x73]
  else if 0x7180 ≤ index ∧ index < 0x7188 then greyRamp
  else if 0x71C0 ≤ index ∧ index < 0x71C8 ∧ sub = 1 then Config.lanczosH.flatMap fun v => leBytes 2 (unsigned 16 v)
  else if 0x71C0 ≤ index ∧ index < 0x71C8 ∧ sub = 2 then Config.lanczosV.flatMap fun v => leBytes 2 (unsigned 16 v)
  else if index = 0x2003 then List.replicate 12 0
  else []

/-- The octets of a STR or DOM entry that the host writes. -/
def State.blobVal (s : State) (index sub : Nat) : Bytes :=
  match assocGet (entryKey index sub) s.blobs with
  | some b => b
  | none => defaultBlob index sub

/-- Every instance of a table row: (index, sub). -/
def Entry.instances (d : Entry) : List (Nat × Nat) :=
  (List.range d.count).flatMap fun i => (List.range d.subs).map fun j => (d.index + i * d.step, d.sub + j)

/-- Order of entries by index and sub-index. -/
def keyBefore (a b : Nat × Nat × Entry) : Bool :=
  decide (a.1 < b.1) || (a.1 == b.1 && decide (a.2.1 ≤ b.2.1))

/-- Every entry, sorted by index and sub-index (R280). -/
def allEntries : List (Nat × Nat × Entry) :=
  (entryTable.flatMap fun d => d.instances.map fun p => (p.1, p.2, d)).mergeSort keyBefore

/-- The stored (P) entries, sorted. -/
def storedEntries : List (Nat × Nat × Entry) := allEntries.filter fun e => e.2.2.stored

/-- The octets of an entry in force: numeric or DOM. -/
def State.valueBytes (s : State) (index sub : Nat) (d : Entry) : Bytes :=
  match d.ty with
  | .str | .dom => s.blobVal index sub
  | t => encodeValue t (s.val index sub)

/-- Pad to a multiple of 4 (R265, R280, R282). -/
def pad4 (b : Bytes) : Bytes := b ++ List.replicate ((4 - b.length % 4) % 4) 0

/-- A record of a profile image (R282). -/
def imageRecord (index sub : Nat) (v : Bytes) : Bytes :=
  pad4 (leBytes 2 index ++ leBytes 1 sub ++ leBytes 1 0 ++ leBytes 2 v.length ++ leBytes 2 0 ++ v)

/-- The records of the P entries in force (R282). -/
def State.imageRecords (s : State) : Bytes :=
  storedEntries.flatMap fun (i, j, d) => imageRecord i j (s.valueBytes i j d)

/-- CRC-32C of the P entries in force (R347): over their image records (DEDUCED, row 13). -/
def State.pCrc (s : State) : Nat := crc32c s.imageRecords

/-- The image of a profile (R282). -/
def profileImage (n generation : Nat) (records : Bytes) (count : Nat) : Bytes :=
  let b := leBytes 2 0x4650 ++ leBytes 1 1 ++ leBytes 1 n ++ leBytes 4 generation
    ++ leBytes 4 (24 + records.length + 4) ++ leBytes 4 count ++ leBytes 4 Config.firmwareVersion
    ++ leBytes 4 0 ++ records
  b ++ leBytes 4 (crc32c b)

/-- The image of a stored profile (R282): every P entry with the value it holds, the default where it holds none. -/
def Profile.image (n : Nat) (p : Profile) : Bytes :=
  let value := fun (i j : Nat) (d : Entry) =>
    match d.ty with
    | .str | .dom => (assocGet (entryKey i j) p.blobs).getD (defaultBlob i j)
    | t => encodeValue t ((assocGet (entryKey i j) p.values).getD d.dflt)
  profileImage n p.generation (storedEntries.flatMap fun e => imageRecord e.1 e.2.1 (value e.1 e.2.1 e.2.2)) storedEntries.length

/-- Octets of a text. -/
def textBytes (t : String) : Bytes := t.toUTF8.toList.map fun b => BitVec.ofNat 8 b.toNat

/-- A description record (Table 12.6). MinMinor is an unstated value (row 14). -/
def descriptionRecord (index sub : Nat) (d : Entry) : Bytes :=
  let blob := d.ty == .str || d.ty == .dom
  let n := textBytes d.name
  let u := textBytes d.unit
  pad4 (leBytes 2 index ++ leBytes 1 sub ++ leBytes 1 (typeCode d.ty) ++ leBytes 1 (accessCode d.acc)
    ++ leBytes 1 (b2n d.stored) ++ leBytes 1 (Config.entryMinor (entryKey index sub) % 3)
    ++ leBytes 1 (2 * b2n (d.acc == .wo) + b2n (Config.entryNotInterval (entryKey index sub)))
    ++ leBytes 8 (unsigned 64 d.lo) ++ leBytes 8 (unsigned 64 d.hi)
    ++ leBytes 8 (unsigned 64 (if blob then 0 else d.dflt)) ++ leBytes 1 n.length ++ leBytes 1 u.length ++ n ++ u)

/-- DictionaryDescription (R280). -/
def dictionaryDescription : Bytes :=
  let b := leBytes 2 0x4444 ++ leBytes 1 1 ++ leBytes 1 0 ++ leBytes 4 allEntries.length
    ++ allEntries.flatMap fun (i, j, d) => descriptionRecord i j d
  b ++ leBytes 4 (crc32c b)

end Sys2Proof.Machine
end

