-- ==== Sys2Proof/Machine/Access.lean ====
section
/-!
DEFINITION. Host access: where Choyr is served (R24, R276, R390), roles (R361), the order of checks (R278), the
audit record of a write (R373), and the answer (R269).
-/
namespace Sys2Proof.Machine

/-- Codes of the roles (Table 18.7). -/
def Role.code : Role → Nat
  | .operator => 1 | .integrator => 2 | .service => 3 | .vendor => 4

def roleOf (n : Nat) : Role :=
  match n with | 2 => .integrator | 3 => .service | 4 => .vendor | _ => .operator

/-- States in which a request is answered at all (R24, R390). -/
def choyrServed : ModState → Bool
  | .selftest | .ready | .armed | .building | .paused | .safe | .service => true
  | _ => false

/-- Session q can be answered: Choyr is served, the session is open, and no profile is being loaded (R285, R390). A RESET
that waits for the resume copier has been taken before any request (R26, R346). -/
def State.served (s : State) (q : Sess) : Bool :=
  choyrServed s.modState && s.sessions[q].isSome && s.profileBusy != 2 && s.supply.resetHeld.isNone

/-- A write of value v to an entry is permitted to a role (Table 18.2). -/
def mayWrite (r : Role) (index sub : Nat) (acc : Access) (v : Int) : Bool :=
  let opInt := r == .operator || r == .integrator
  let intSvc := r == .integrator || r == .service
  if index = 0x2001 ∧ sub = 1 then
    if 1 ≤ v ∧ v ≤ 6 then opInt
    else if v = 8 ∨ v = 9 then r == .service
    else if v = 10 then intSvc || r == .vendor
    else intSvc
  else if index = 0xA010 ∧ sub = 1 then opInt
  else if index = 0x2004 ∧ (sub = 1 ∨ sub = 5) then opInt
  else if index = 0x2003 ∧ (sub = 1 ∨ sub = 4) then opInt
  else if 0x6001 ≤ index ∧ index ≤ 0x6301 ∧ index % 0x100 = 1 ∧ (sub = 1 ∨ sub = 2 ∨ sub = 3) then opInt
  else if index = 0x1F00 ∧ sub = 4 then
    if v = 0 then intSvc else intSvc || r == .operator
  else if index = 0xA030 ∧ (sub = 1 ∨ sub = 3) then r == .integrator || r == .vendor
  else if 0xA000 ≤ index ∧ index ≤ 0xA3FF then r == .integrator
  else if 0xF000 ≤ index ∧ index ≤ 0xF3FF then intSvc || r == .vendor
  else if acc = .rws then r == .service
  else intSvc

/-- The refusal, if any, of an access before its value is looked at (R276, R278 steps 1 to 3). -/
def State.accessRefusal (s : State) (r : Role) (index sub : Nat) (acc : Access) (write : Bool) (v : Int) :
    Option Nat :=
  if s.modState = .selftest ∧ ¬ (0x1000 ≤ index ∧ index ≤ 0x100F) then some 0x0105
  else if write && acc != .ro && !mayWrite r index sub acc v then some 0x0106
  else if write && acc == .ro then some 0x0103
  else if !write && acc == .wo then some 0x0104
  else if write && acc == .rwb && s.modState == .building then some 0x0105
  else none

/-- The answer to an access to an entry that is not there: in SELFTEST only identity entries are served; an index that
exists has no such sub-index (R276). -/
def State.missing (s : State) (index : Nat) : Nat :=
  if s.modState = .selftest ∧ ¬ (0x1000 ≤ index ∧ index ≤ 0x100F) then 0x0105
  else if (entryPart index).any fun d => d.coversIndex index then 0x0102 else 0x0101

/-- The head of a body of area 0xA (R373): account, role, session, address. -/
def State.auditHead (s : State) (q : Sess) : List Int :=
  match s.sessions[q] with
  | some x => [(x.account.map (fun (a : Fin 32) => (a.val : Int))).getD 255, x.role.code, q.val, x.ip]
  | none => [255, 0, q.val, 0]

/-- A write to a P entry, to a command entry or to 0xA000–0xA3FF is audited (R373). -/
def audited (index : Nat) (d : Entry) : Bool :=
  d.stored || d.acc == .wo || (0xA000 ≤ index && index ≤ 0xA3FF) || (index % 0x100 == 0x0A && index / 0x1000 == 4)

/-- Write record 0xA104 (R373, Table 18.8). -/
def State.audit (s : State) (q : Sess) (index sub status : Nat) : State :=
  match findEntry index sub with
  | some d =>
    if audited index d then s.emit 0xA104 255 (s.auditHead q ++ [(index : Int), (sub : Int), (status : Int)]) else s
  | none => s

/-- An authenticated record of the session has arrived (R266). -/
def State.touch (s : State) (q : Sess) : State := s.modSession q fun x => { x with lastRecord := s.tick }

/-- A host write of value v: unanswered where it is not served, refused by the checks of R278 in their
order, else carried out, audited and answered. A segment that is only staged is not yet a write to audit (R270,
DEDUCED). -/
def State.hostWith (staging : Bool) (s : State) (q : Sess) (index sub : Nat) (v : Int) (act : State → State × Nat) : State :=
  if s.served q then
    match s.sessions[q], findEntry index sub with
    | some x, some d =>
      match (s.touch q).accessRefusal x.role index sub d.acc true v with
      | some st => ((s.touch q).audit q index sub st).reply st
      | none =>
        -- during a store P entries are not written (R284); the recovery image serves only firmware update and reads
        -- (R369), the RESTART that ends it, and CLEAR_SAFE, which it refuses with 0x0301 (Table 1.8)
        if d.stored && s.profileBusy == 1 then ((s.touch q).audit q index sub 0x0301).reply 0x0301
        else if s.recovery && index / 0x10 != 0xA03 && !(index == 0x2001 && (v == 7 || v == 10)) then
          ((s.touch q).audit q index sub 0x0105).reply 0x0105
        else
          let r := act (s.touch q)
          (if staging && r.2 == 0 then r.1 else r.1.audit q index sub r.2).reply r.2
    | some _, none => (s.touch q).reply (s.missing index)
    | none, _ => s
  else s

/-- A host write of a whole value. -/
def State.host (s : State) (q : Sess) (index sub : Nat) (v : Int) (act : State → State × Nat) : State :=
  State.hostWith false s q index sub v act

/-- A segment that is not the last of its write (R270). -/
def State.segment (s : State) (q : Sess) (index sub : Nat) (act : State → State × Nat) : State :=
  State.hostWith true s q index sub 0 act

/-- A host read: unanswered where it is not served, refused by R276 and R278, else answered with octets. -/
def State.hostRead (s : State) (q : Sess) (index sub : Nat) (data : State → State × Bytes) : State :=
  if s.served q then
    match s.sessions[q], findEntry index sub with
    | some x, some d =>
      match (s.touch q).accessRefusal x.role index sub d.acc false 0 with
      | some st => { (s.touch q) with answer := st, answerData := [] }
      | none => let r := data (s.touch q); { r.1 with answer := 0, answerData := r.2 }
    | some _, none =>
      { (s.touch q) with answer := s.missing index, answerData := [] }
    | none, _ => s
  else s

/-- Refuse: nothing changes (R278). -/
def refused (s : State) (status : Nat) : State × Nat := (s, status)

/-- Accept. -/
def accepted (s : State) : State × Nat := (s, 0)

/-- A numeric value lies in its entry's range (R278 step 4). -/
def inRange (d : Entry) (v : Int) : Bool := decide (d.lo ≤ v) && decide (v ≤ d.hi)

/-- Session q holds a role. -/
def State.roleIs (s : State) (q : Sess) (r : Role) : Bool := s.sessions[q].any fun x => x.role == r

end Sys2Proof.Machine
end

