-- ==== Sys2Proof/Machine/Cameras.lean ====
section
/-!
DEFINITION. Camera ports (R119, R211 to R215): frames into ring slots, their headers, triggers and exposures.
-/
namespace Sys2Proof.Machine

/-- States in which cameras, compositor and ring run (R234). -/
def imagingRuns : ModState → Bool
  | .ready | .armed | .building | .paused | .safe | .service => true
  | _ => false

/-- Bytes of a pixel of a data type (R214). -/
def pixelBytes (dataType : Nat) : Nat := if dataType = 0x2A then 1 else 2

/-- Flags of a frame header (Table 10.1). -/
def CamFrame.flags (f : CamFrame) : Nat :=
  b2n f.bad + 2 * b2n f.truncated + 4 * b2n f.crcError + 8 * b2n f.strobed + 16 * b2n f.tag.isSome

/-- The 64-byte header (Table 10.1). -/
def camHeader (port : Nat) (f : CamFrame) : Bytes :=
  let t := f.tag.getD {}
  let b := leBytes 2 0x4643 ++ leBytes 1 port ++ leBytes 1 f.flags ++ leBytes 2 f.width ++ leBytes 2 f.lines
    ++ leBytes 8 f.number ++ leBytes 8 f.seconds ++ leBytes 4 f.nanos ++ leBytes 1 t.laser ++ leBytes 1 t.engine
    ++ leBytes 1 (b2n t.gate) ++ leBytes 1 f.dataType ++ leBytes 4 (unsigned 32 t.x) ++ leBytes 4 (unsigned 32 t.y)
    ++ leBytes 2 t.partId ++ leBytes 2 0 ++ leBytes 4 t.featureTag ++ leBytes 4 f.layer ++ List.replicate 8 0
  b ++ leBytes 4 (crc32c b)

/-- Layer in execution, 0 outside BUILDING (Tables 10.1 and 10.2). -/
def State.layerNow (s : State) : Nat := if s.modState = .building then s.layer.number else 0

/-- A slot that the scale stage has locked (R220). -/
def State.slotLocked (s : State) (p : CamId) (n : Nat) : Bool :=
  s.planes.toList.any fun k => k.scaling.any fun i => i.lock == some (p.val, n)

/-- The oldest slot that is not locked: an empty one first (R214). -/
def State.freeRingSlot (s : State) (p : CamId) : Nat :=
  let c := s.cams[p]
  let age : Nat → Nat := fun n => match assocGet n c.ring with | some f => f.number + 1 | none => 0
  match ((List.range c.cfg.slots).filter fun n => !s.slotLocked p n) with
  | [] => 0
  | a :: t => t.foldl (fun b n => if age n < age b then n else b) a

/-- The source picture that a plane takes of a good frame (R216). -/
def frameSource (p : Nat) (f : CamFrame) : SrcImage :=
  { width := f.width, height := f.height, kind := if f.dataType = 0x2A then 0 else 1
    drop := if f.dataType = 0x2C then 4 else 2, stride := f.width * pixelBytes f.dataType, data := f.pixels
    lock := some (p, f.slot), frame := f.number }

/-- A plane whose scale stage is free takes the newest good frame of its camera (R216, R220). -/
def State.feedPlane (s : State) (k : PlaneId) : State :=
  let x := s.planes[k]
  if x.scaling.isSome then s
  else if h : 1 ≤ x.cfg.source ∧ x.cfg.source ≤ 5 then
    let p : CamId := ⟨x.cfg.source - 1, by omega⟩
    let good := (s.cams[p].ring.map (·.2)).filter fun f => !f.bad
    let seen := max ((x.fresh.map (·.frame)).getD 0) ((x.shown.map (·.frame)).getD 0)
    match good.foldl (fun (b : Option CamFrame) f =>
        match b with | none => some f | some y => some (if y.number < f.number then f else y)) none with
    | some f => if f.number ≤ seen then s else s.modPlane k fun x => { x with scaling := some (frameSource p.val f) }
    | none => s
  else s

/-- The frame in progress of a port ends: flags, header, ring, counters, record 0x7101 (R212). -/
def State.endFrame (s : State) (p : CamId) (truncated forced : Bool) : State :=
  match s.cams[p].frame with
  | none => s
  | some f =>
    let f := { f with truncated := f.truncated || truncated || f.lines != f.height }
    let f := { f with bad := forced || f.truncated || f.crcError }
    let s := s.modCam p fun c => { c with frame := none, ring := assocPut f.slot f c.ring }
    let s := s.put (0x7000 + p.val) 0x16 f.slot
    if f.bad then
      (s.bump (0x7000 + p.val) 0x12).emit 0x7101 p.val [p.val, f.number, f.flags, f.lines]
    else State.foldFin 8 (s.bump (0x7000 + p.val) 0x11) fun k s => s.feedPlane k

/-- The staged configuration of a port (R213). -/
def State.stagedCam (s : State) (p : CamId) : CamConfig :=
  let v := s.nat (0x7000 + p.val)
  { enable := v 1 == 1, lanes := v 2, laneRate := v 3, dataType := v 4, vc := v 5, width := v 6, height := v 7
    slots := v 8, timeout := v 9 }

/-- The melt-pool tag at the exposure midpoint: the engine routed to the laser then, the path position less GateAlign, the
gate and the label (R119, R115). -/
def State.camTag (s : State) (p : CamId) : Option CamTag :=
  if p.val = 0 then none
  else
    match (List.finRange 12).find? fun (l : LaserId) => l.val == s.inForce 0x5300 p.val with
    | none => none
    | some l =>
      let at8 : Int := 8 * (s.tick : Int) - s.inForce 0x5301 p.val * 16 / 25
      match (List.finRange 13).find? fun (e : EngineId) => e.val == s.routedAt l (at8 / 8).toNat with
      | none => some { laser := l.val, x := bedUnit s.lasers[l].frameX, y := bedUnit s.lasers[l].frameY }
      | some e =>
        let g := s.engines[e]
        let t := planTime (at8 - s.alignOf l)
        let m := motionPiece g.plan t
        let (x, y) := match m with | some m => motionAt m t | none => (g.posX, g.posY)
        some { laser := l.val, engine := e.val, x := bedUnit x, y := bedUnit y, gate := g.levelAt at8
               partId := (m.map (·.partId)).getD g.par.partId, featureTag := (m.map (·.featureTag)).getD g.par.featureTag }

/-- CAM_FRAME_START: staged settings take effect, a packet of another virtual channel is discarded and counted (R211), an unended frame ends as TRUNCATED, and a frame begins in the
oldest free slot, tagged at its exposure midpoint (R119, R212 to R214). -/
def execCamFrameStart (p : CamId) (vc : Fin 4) (s : State) : Out :=
  if !imagingRuns s.modState then .next s
  else
    let s := match s.cams[p].staged with
      | some g =>
        if g.vc = vc.val ∨ (s.cams[p].cfg.enable = true ∧ s.cams[p].cfg.vc = vc.val) then
          (s.endFrame p true false).modCam p fun c => { c with cfg := g, staged := none, ring := [] }
        else s
      | none => s
    let c := s.cams[p]
    if !c.cfg.enable then .next s
    else if c.cfg.vc != vc.val then .next (s.bump (0x7000 + p.val) 0x13)
    else
      let s := s.endFrame p true false
      let slot := s.freeRingSlot p
      let d := s.deviceTime
      let size := c.cfg.width * c.cfg.height * pixelBytes c.cfg.dataType
      let f : CamFrame :=
        { number := c.frameNumber + 1, slot := slot, width := c.cfg.width, height := c.cfg.height
          dataType := c.cfg.dataType, strobed := c.strobeFrame, deadline := s.tick + msTicks c.cfg.timeout
          tag := s.camTag p, seconds := d.1, nanos := d.2, layer := s.layerNow
          pixels := (((assocGet slot c.ring).map fun (f : CamFrame) => f.pixels).getD [] ++ List.replicate size 0).take size }
      .next (s.modCam p fun c =>
        { c with frame := some f, frameNumber := c.frameNumber + 1, groupLost := false, strobeFrame := false
                 ring := assocDel slot c.ring })

/-- CAM_LONG_PACKET: a line of the frame is written to its place, one or two octets a pixel (R211, R212, R214);
each line-group of 8 takes a Q_IMG credit or is discarded (R17). -/
def execCamLongPacket (p : CamId) (vc : Fin 4) (dataType : Byte) (headerOk crcOk : Bool) (pixels : Bytes)
    (s : State) : Out :=
  let c := s.cams[p]
  if !imagingRuns s.modState || !headerOk || !c.cfg.enable then .next s
  else if vc.val ≠ c.cfg.vc || dataType.toNat ≠ c.cfg.dataType then .next (s.bump (0x7000 + p.val) 0x13)
  else
    match c.frame with
    | none => .next s
    | some f =>
      let first := f.lines % 8 == 0
      let lost := if first then c.imgCredits == 0 else c.groupLost
      let w := f.width * pixelBytes f.dataType
      let o := f.lines * w
      let put := fun (b : Bytes) =>
        if lost || f.height ≤ f.lines then b
        else b.take o ++ pixels.take w ++ b.drop (o + min w pixels.length)
      let f' := { f with
        lines := f.lines + 1, crcError := f.crcError || !crcOk
        truncated := f.truncated || lost || pixels.length != w, pixels := put f.pixels }
      let s := s.modCam p fun c =>
        { c with frame := some f', groupLost := lost
                 imgCredits := if first then c.imgCredits - 1 else c.imgCredits
                 lostGroups := if first && lost then c.lostGroups + 1 else c.lostGroups }
      .next (if first && lost then s.bump 0xF011 2 else s)

/-- CAM_FRAME_END: the frame ends (R212); a packet of another virtual channel is discarded and counted (R211). -/
def execCamFrameEnd (p : CamId) (vc : Fin 4) (s : State) : Out :=
  if !imagingRuns s.modState || !s.cams[p].cfg.enable then .next s
  else if s.cams[p].cfg.vc != vc.val then .next (s.bump (0x7000 + p.val) 0x13)
  else .next (s.endFrame p false false)

/-- FRAME_TIMEOUT: FrameTimeout after the frame start the frame ends as TRUNCATED (R212, R27). -/
def execFrameTimeout (p : CamId) (s : State) : Out :=
  match s.cams[p].frame with
  | some f => if s.tick < f.deadline then .next s else .next (s.endFrame p true false)
  | none => .next s

/-- An exposure begins: CAMn_TRIG goes high for ExposureScans scans, with strobes where they are enabled (R215,
R233). -/
def State.startExposure (s : State) (p : CamId) : State :=
  let strobe := s.nat (0x7000 + p.val) 0x10 == 1 && s.nat 0x7800 1 != 0
  s.modCam p fun c =>
    { c with request := false, trig := true, strobe := strobe, strobeFrame := strobe
             trigUntil := some (s.tick + 32000 * s.nat (0x7000 + p.val) 0x0E) }

/-- An exposure of a port is requested: dropped and counted during one, taken at the next scan boundary, or at the
one of this tick (R215). -/
def State.requestExposure (s : State) (p : CamId) : State :=
  if !imagingRuns s.modState then s
  else if s.cams[p].trig then s.bump (0x7000 + p.val) 0x14
  else if s.tick % 32000 = 0 && s.scanNumber == s.tick / 32000 + 1 then s.startExposure p
  else s.modCam p fun c => { c with request := true }

/-- Ports in trigger mode 3 expose at layer start and at the end of the layer's exposure (R215). -/
def State.layerExposure (s : State) : State :=
  State.foldFin 5 s fun p s => if s.nat (0x7000 + p.val) 0x0C = 3 then s.requestExposure p else s

/-- TRIG_PERIOD: every TrigPeriod scans in mode 2, every second one of these from throttle stage 1 on (R215, R353). -/
def execTrigPeriod (p : CamId) (s : State) : Out :=
  if s.nat (0x7000 + p.val) 0x0C = 2 ∧ s.nat (0x7000 + p.val) 0x0D * (if 2 ≤ s.supply.level then 2 else 1) ≤ s.cams[p].scanCount then
    .next ((s.modCam p fun c => { c with scanCount := 0 }).requestExposure p)
  else .next s

/-- EXPOSURE_END: CAMn_TRIG falls and the strobe ends (R215). -/
def execExposureEnd (p : CamId) (s : State) : Out :=
  match s.cams[p].trigUntil with
  | some t =>
    if s.tick < t then .next s
    else .next (s.modCam p fun c => { c with trig := false, trigUntil := none, strobe := false })
  | none => .next s

end Sys2Proof.Machine
end

