-- ==== Sys2Proof/Machine/Engine.lean ====
section
/-!
DEFINITION. The vector words (R34 to R44, R62): each acts on the word under execution of an engine in
RUNNING that waits for nothing, and otherwise changes nothing.
-/
namespace Sys2Proof.Machine

/-- A pre-emption point is reached: an ordered park is taken there (R101). -/
def State.atPointNow (s : State) (e : EngineId) : State :=
  (s.modEngine e fun g => { g with gateSincePoint := false, atPoint := true }).parkIfDue e

/-- Plan a jump to (x, y) in 1/65,536 bed units, with a settle of n updates where asked (R62). -/
def Engine.planJump (g : Engine) (x y : Int) (settle : Option Nat) : Engine :=
  let d := dist2 (x - g.posX) (y - g.posY)
  let p := jumpPlan d g.par.jumpSpeed g.par.jumpAccel g.par.jumpJerk
  let m := { g.piece .jump g.jumpStart (p.n * upd) with
    x1 := x, y1 := y, jumpDist := d, jumpV := g.par.jumpSpeed, jumpA := g.par.jumpAccel, jumpJ := g.par.jumpJerk }
  let g := g.plan1 m
  match settle with
  | some n => g.plan1 (g.piece .settle g.planEnd (n * upd))
  | none => g

/-- A resume jump, with settle (R160). -/
def Engine.backJump (g : Engine) (x y : Int) : Engine :=
  let n := g.plan.length
  let g := g.planJump x y (some g.par.settle)
  let back := if g.stopInUnit then 2 else 1
  { g with backTo := none, plan := g.plan.take n ++ (g.plan.drop n).map fun m => { m with back := back } }

/-- Return to the position at which the word under execution continues (R160). -/
def Engine.goBack (g : Engine) : Engine :=
  match g.backTo with
  | none => g
  | some (x, y) => if x = g.posX ∧ y = g.posY then { g with backTo := none } else g.backJump x y

/-- A JUMP whose unit, if it leads to one, has its claim (R62, R93). -/
def State.moveJump (s : State) (e : EngineId) (settle : Bool) (x y : Int) : State :=
  let s := s.modEngine e fun g =>
    let g' := { g with backTo := none }.planJump (x * 65536) (y * 65536) (if settle then some g.par.settle else none)
    let g' := { g' with atPoint := false }
    if g.firstJumpDone then g' else { g' with firstJumpDone := true, execStart := g'.planEnd, waitUpdates := 0 }
  s.advance e

/-- Overlap of a seam half in bed units: 0 selects the bed default in force at ARM (R43, R110). -/
def State.overlapUnits (s : State) (h : SeamHalf) : Nat :=
  (if h.overlap = 0 then s.armNat 0x2803 1 else h.overlap) * 40

/-- The seam wait of an incoming half ends: its SeamID leaves the mailbox; a different Overlap is recorded
(R112), and a lag above SeamLagMax (R113). The Overlap fields are compared as the two SEAM words give them, so that 0 differs from
the bed default written out: the spec does not say (DEDUCED, row 104). -/
def State.endSeamWait (s : State) (e : EngineId) (h : SeamHalf) : State :=
  if ht : h.token < 64 then
    match s.tokens[h.token].mailbox.find? fun m => m.1 == h.seamId with
    | none => s
    | some (_, outEngine, ov, tick) =>
      let s := s.modToken ⟨h.token, ht⟩ fun t => t.takeSeam h.seamId
      let s := s.modEngine e fun g => { g with seam := some { h with waited := true }, wait := .none }
      let s := if ov ≠ h.overlap then s.emit 0x2807 e.val [h.seamId, ov, h.overlap] else s
      let lag := 40 * (s.engines[e].startU / upd) - tick
      let s := if lag > s.armNat 0x2803 2 * 80 then
          s.emit 0x2805 e.val [h.seamId, outEngine, e.val, lag] else s
      if s.eff e = .yielding then s.setEff e .running 0 else s
  else s

/-- The SeamID an incoming half waits for has come (R112). -/
def State.seamArrived (s : State) (h : SeamHalf) : Bool := s.seamIn h.token h.seamId

/-- The seam mark's overlap, half and distance, put into a piece (R111). -/
def Motion.withSeam (m : Motion) (ov : Nat) (incoming : Bool) (offset : Nat) : Motion :=
  { m with seamOverlap := ov, seamIncoming := incoming, seamOffset := offset }

/-- Open a mark segment at the next update boundary: the gate rises at G_s + OnDelay (R64); with Power 0 it
stays low (R37). -/
def State.openSegment (s : State) (e : EngineId) : State :=
  let g := s.engines[e]
  let t0 := g.startU
  let s := if g.par.power = 0 then s else s.placeRise e (eighths t0 + s.gateAlign e + g.par.onDelay)
  s.modEngine e fun g =>
    { g with inSegment := true, segStart := t0 / upd, segHasMark := g.par.power != 0, gateSincePoint := true,
             atPoint := false, segDirX := 0, segDirY := 0 }

/-- The path of a MARK to (x, y), with its corner hold where the direction changes (R37), from `offset` along
the original MARK; `half` and `ov` are the seam half announced and its overlap (R111). -/
def Engine.planMark (g : Engine) (noCorner seam mask : Bool) (x y : Int) (offset : Nat) (half : Option SeamHalf)
    (ov : Nat) : Engine :=
  let dx := x * 65536 - g.posX
  let dy := y * 65536 - g.posY
  let hold := !noCorner && (g.segDirX != 0 || g.segDirY != 0)
    && cornerExceeds g.segDirX g.segDirY dx dy g.par.cornerAngle
  let g := if hold then
      g.plan1 { g.piece .corner g.planEnd (g.par.cornerDelay * upd) with
        scale := g.par.cornerScale, inUnit := true, seg := true, anomMask := mask }
    else g
  let m := { g.piece .mark (max g.planEnd (upd * g.segStart)) (markDuration dx dy g.par.markSpeed) with
    x1 := x * 65536, y1 := y * 65536, anomMask := mask, inUnit := true, seg := true }
  let m := if seam && half.isSome then m.withSeam ov ((half.map (·.incoming)).getD false) offset
    else { m with seamOffset := offset }
  { g.plan1 m with segDirX := dx, segDirY := dy }

/-- The restart point of R160 of an engine. -/
def Engine.restart (g : Engine) : Int × Int × Nat := restartPoint g.stopX g.stopY g.stopMarkX0 g.stopMarkY0

/-- Go on after a break (R41, R160): claim for the rest of the unit, jump to the restart point, settle, and the rest of
the segment as a new one that begins with the last 20 µm of the MARK before the break. -/
def State.resumeBreak (s : State) (e : EngineId) (b : BreakPoint) : State :=
  let g := s.engines[e]
  let (rx, ry, off) := g.restart
  if g.claimId.isNone then
    s.postClaim e (breakRect rx ry b g.rest)
      (if b.seam || seamInSegment g.rest then g.seam.map (·.seamId) else none)
  else if !g.claimGranted then s
  else
    let s := s.modEngine e fun g => { g.backJump rx ry with stopInUnit := false }
    let s := s.openSegment e
    let half := g.seam
    let ov := (half.map s.overlapUnits).getD 0
    s.modEngine e fun h =>
      let n := g.plan.length
      let h := h.planMark true b.seam b.mask (b.x / 65536) (b.y / 65536) off half ov
      { h with
        breakTo := none, gateSincePoint := true, seam := if b.seam then h.seam.map fun x => { x with marked := true } else h.seam
        plan := h.plan.take n ++ (h.plan.drop n).map fun m => { m with brk := some b } }

/-- The word rows act only on their own word: apply f to the engine when its word satisfies p. After a break the engine
first goes back to it. -/
def State.onWord (s : State) (e : EngineId) (f : VWord → Option State) : State :=
  if s.executing e then
    match s.engines[e].word, s.engines[e].breakTo with
    | some w, some b => if (f w).isSome then s.resumeBreak e b else s
    | some w, none => (f w).getD s
    | none, _ => s
  else s

/-- JUMP: posts the claim of the unit it leads to when set-point generation reaches it, and moves once that is
granted (R62, R93). -/
def execJump (e : EngineId) (s : State) : Out :=
  .next <| s.onWord e fun
    | .jump settle x y =>
      let closes := s.engines[e].inSegment
      let s := s.closeSegment e
      let s := s.parkIfDue e
      if !s.executing e then some s
      else
        let g := s.engines[e]
        match unitAhead (g.rest.drop 1) with
        | some ws =>
          if closes && !s.motionReached e then some s -- the mark delay comes before the JUMP
          else if g.claimId.isNone then
            some (s.postClaim e (unitRect x y ws)
              (if unitHasSeam ws then (seamAhead (g.rest.drop 1)).or (g.seam.map (·.seamId)) else none))
          else if g.claimGranted then some (s.moveJump e settle x y) else some s
        | none => some (s.moveJump e settle x y)
    | _ => none

/-- Run a MARK (R36, R37); the seam half announced ends with its segment, an outgoing one with the signal of R112. -/
def State.runMark (s : State) (e : EngineId) (noCorner seam mask : Bool) (x y : Int) (offset : Nat) : State :=
  let half := s.engines[e].seam
  let ov := (half.map s.overlapUnits).getD 0
  let s := s.modEngine e fun g =>
    { g.planMark noCorner seam mask x y offset half ov with
      gateSincePoint := true
      seam := if seam then g.seam.map fun h => { h with marked := true } else g.seam }
  s.advance e

/-- Resume a MARK inside an exposure unit: claim for the rest of the unit, jump to the restart point, settle,
and the rest of the segment as a new one (R160). -/
def State.resumeMark (s : State) (e : EngineId) (seam mask : Bool) (x y : Int) : State :=
  let g := s.engines[e]
  let (rx, ry, off) := g.restart
  if g.claimId.isNone then s.claimUnit e (bedUnit rx) (bedUnit ry) g.rest
  else if !g.claimGranted then s
  else
    let s := s.modEngine e fun g =>
      { g.backJump rx ry with stopInUnit := false }
    let s := s.openSegment e
    s.runMark e true seam mask x y off

/-- MARK: opens a segment once its claim and seam wait allow, or goes on with the one under way (R36, R37,
R59, R93, R112). -/
def execMark (e : EngineId) (s : State) : Out :=
  .next <| s.onWord e fun
    | .mark noCorner seam mask x y =>
      let g := s.engines[e]
      if g.stopInUnit then some (s.resumeMark e seam mask x y)
      else if g.inSegment then some (s.runMark e noCorner seam mask x y 0)
      else if g.claimId.isNone then some (s.claimUnit e (bedUnit g.here.1) (bedUnit g.here.2) g.rest)
      else if !g.claimGranted then some s
      else
        let s := s.modEngine e Engine.goBack
        match g.seam with
        | some h =>
          if seam && h.incoming && !h.waited then
            if s.seamArrived h then some (s.endSeamWait e h)
            else some ((s.setEff e .yielding 0).modEngine e fun g => { g with wait := .seam h.token h.seamId s.tick })
          else some ((s.openSegment e).runMark e noCorner seam mask x y 0)
        | none => some ((s.openSegment e).runMark e noCorner seam mask x y 0)
    | _ => none

/-- A parameter word or a label takes its place in the parameter state and no time (R34). -/
def State.paramWord (s : State) (e : EngineId) (w : VWord) : State :=
  (s.modEngine e fun g => { g with par := applyParam g.par w }).advance e

/-- SET_MARK_SPEED (R34). -/
def execSetMarkSpeed (e : EngineId) (s : State) : Out :=
  .next <| s.onWord e fun | .setMarkSpeed v => some (s.paramWord e (.setMarkSpeed v)) | _ => none

/-- SET_JUMP_LIMITS (R34). -/
def execSetJumpLimits (e : EngineId) (s : State) : Out :=
  .next <| s.onWord e fun
    | .setJumpLimits v a j st => some (s.paramWord e (.setJumpLimits v a j st))
    | _ => none

/-- SET_POWER: the programmed power from the next slot on (R34, R66). -/
def execSetPower (e : EngineId) (s : State) : Out :=
  .next <| s.onWord e fun | .setPower p => some (s.paramWord e (.setPower p)) | _ => none

/-- SET_FOCUS (R34). -/
def execSetFocus (e : EngineId) (s : State) : Out :=
  .next <| s.onWord e fun | .setFocus z => some (s.paramWord e (.setFocus z)) | _ => none

/-- SET_LASER_DELAYS (R34). -/
def execSetLaserDelays (e : EngineId) (s : State) : Out :=
  .next <| s.onWord e fun
    | .setLaserDelays on off md => some (s.paramWord e (.setLaserDelays on off md))
    | _ => none

/-- SET_CORNER (R34, R37). -/
def execSetCorner (e : EngineId) (s : State) : Out :=
  .next <| s.onWord e fun | .setCorner a d sc => some (s.paramWord e (.setCorner a d sc)) | _ => none

/-- SETPOINT: programmed mode, set-point and band of the lane; Mode 0b00 keeps the mode (R34, R143). -/
def execSetpoint (e : EngineId) (s : State) : Out :=
  .next <| s.onWord e fun
    | .setpoint m sp lo hi => some (s.paramWord e (.setpoint m sp lo hi))
    | _ => none

/-- Plan time of a dwell in eighth-ticks: an update is 320 of them. -/
def dwellTime (d : Nat) : Nat := d * (upd / 320)

/-- DWELL: gate on within a segment, a point exposure outside one, or gate off (R39). -/
def execDwell (e : EngineId) (s : State) : Out :=
  .next <| s.onWord e fun
    | .dwell true d =>
      let g := s.engines[e]
      if g.inSegment then
        some ((s.modEngine e fun g =>
          { g.plan1 { g.piece .dwellOn g.planEnd (dwellTime d) with inUnit := true, seg := true } with gateSincePoint := true }).advance e)
      else if g.claimId.isNone then some (s.claimUnit e (bedUnit g.here.1) (bedUnit g.here.2) g.rest)
      else if !g.claimGranted then some s
      else
        let s := s.modEngine e Engine.goBack
        let g := s.engines[e]
        let d := if g.stopInUnit then g.stopDwell else d
        let t0 := g.startU
        let rise := eighths t0 + s.gateAlign e
        let s := (s.placeRise e rise).placeFall e (rise + d)
        let s := s.modEngine e fun g =>
          let g := g.plan1 { g.piece .dwellOn t0 (dwellTime d) with inUnit := true }
          { g with gateSincePoint := true, atPoint := false, stopInUnit := false, planEnd := upd * ceilDiv g.planEnd upd }
        let s := s.modEngine e fun g => g.endSeam (tickOf8 (rise + d))
        some ((s.releaseClaimAt e (tickOf8 (rise + d))).advance e)
    | .dwell false d =>
      let s := (s.closeSegment e).parkIfDue e
      if !s.executing e then some s
      else some (((s.modEngine e Engine.goBack).modEngine e fun g =>
        { g.plan1 (g.piece .dwellOff g.startU (upd * ceilDiv (dwellTime d) upd)) with atPoint := false }).advance e)
    | _ => none

/-- TOKEN with Action SIGNAL: the count rises by 1, saturating (R44, R108); a held remainder may then be
assigned (R102). -/
def execTokenSignal (e : EngineId) (s : State) : Out :=
  .next <| s.onWord e fun
    | .token false t _ =>
      if h : t < 64 then
        some (((s.modToken ⟨t, h⟩ fun k => k.advance s.tick).advance e).assignRemainders)
      else none
    | _ => none

/-- TOKEN with Action WAIT: goes on when the count is reached, otherwise waits with the gate off (R44,
R108). -/
def execTokenWait (e : EngineId) (s : State) : Out :=
  .next <| s.onWord e fun
    | .token true t n =>
      if s.tokenReached t n then some (s.advance e)
      else some ((s.setEff e .yielding 0).modEngine e fun g => { g with wait := .token t n s.tick })
    | _ => none

/-- TOKEN_WAIT_SATISFIED: the awaited count is reached; the engine leaves YIELDING and goes on (R108). -/
def execTokenWaitSatisfied (e : EngineId) (s : State) : Out :=
  match s.engines[e].wait with
  | .token t n _ =>
    if s.tokenReached t n then
      let s := s.modEngine e fun g => { g with wait := .none }
      .next ((s.setEff e .running 0).advance e)
    else .next s
  | _ => .next s

/-- SEAM: announces the next MARK with SEAM set (R43). -/
def execSeam (e : EngineId) (s : State) : Out :=
  .next <| s.onWord e fun
    | .seam inc t ov id =>
      some ((s.modEngine e fun g =>
        { g with seam := some { incoming := inc, token := t, overlap := ov, seamId := id } }).advance e)
    | _ => none

/-- SEAM_WAIT_END: the SeamID is in the mailbox; the incoming engine removes it and proceeds (R112). -/
def execSeamWaitEnd (e : EngineId) (s : State) : Out :=
  let s := s.seamSignals
  match s.engines[e].wait, s.engines[e].seam with
  | .seam _ _ _, some h => if s.seamArrived h then .next (s.endSeamWait e h) else .next s
  | _, _ => .next s

/-- Word offsets of the members of a group from the words after its begin word: each JUMP up to the end
word; and the offset of the end word (R42). -/
def groupMembers (id : Nat) : Nat → List VWord → List Nat → List Nat × Nat
  | off, [], acc => (acc, off)
  | off, w :: t, acc =>
    match w with
    | .group false i => if i = id then (acc, off) else groupMembers id (off + 1) t acc
    | .jump .. => groupMembers id (off + 1) t (acc ++ [off])
    | _ => groupMembers id (off + 1) t acc

/-- GROUP with BEGIN: the members may run in any order (R42). -/
def execGroupBegin (e : EngineId) (s : State) : Out :=
  .next <| s.onWord e fun
    | .group true id =>
      let s := (s.closeSegment e).parkIfDue e
      if !s.executing e then some s
      else
        let g := s.engines[e]
        let (ms, fin) := groupMembers id (g.wordOff + 1) (g.rest.drop 1) []
        -- a LABEL before the first JUMP belongs to the begin state
        let par := ((g.rest.drop 1).take (ms.headD 0 - g.wordOff - 1)).foldl applyParam g.par
        let gr : Group := { groupId := id, beginOffset := g.wordOff, members := ms, endOffset := fin,
                            partId := par.partId, featureTag := par.featureTag }
        some (s.modEngine e fun g => g.toMember gr 0)
    | _ => none

/-- Leave a group; a block of which members ran out of order is not compared under R48. -/
def Engine.leaveGroup (out : Bool) (g : Engine) : Engine :=
  { g with group := none
           buf := g.buf.modifyHead fun (b : Block) => { b with measured := b.measured || out } }

/-- GROUP end: closes the segment and leaves the group (R42). -/
def execGroupEnd (e : EngineId) (s : State) : Out :=
  .next <| s.onWord e fun
    | .group false _ =>
      let s := (s.closeSegment e).parkIfDue e
      if !s.executing e then some s
      else
        -- whether members ran out of order decides the comparison of R48 at the block's end
        let out : Bool := match s.engines[e].group with | some r => r.outOfOrder | none => false
        some ((s.modEngine e (Engine.leaveGroup out)).advance e)
    | _ => none

/-- Break the segment under way at a PREEMPT (R41, R158 step 1): it ends here, and the engine goes on behind the PREEMPT,
20 µm back along the MARK just run (R160). The retrace runs with the parameters in force behind the PREEMPT (DESIGN
CHOICE, row 103). -/
def State.breakSegment (s : State) (e : EngineId) : State :=
  let g := s.engines[e]
  let m := (g.plan.filter fun m => m.phase == .mark).getLast?
  -- the segment's seam half is not signalled here: its MARK is taken up again
  let s := s.modEngine e fun g => { g with seam := none }
  (s.closeSegment e).modEngine e fun h =>
    match m with
    | none => { h with seam := g.seam }
    | some m =>
      let len := length16 (m.x1 - m.x0) (m.y1 - m.y0) / 65536
      let total := m.seamOffset + len
      let seam := decide (0 < m.seamOverlap)
      let h := { h with
        stopInUnit := true, stopX := h.posX, stopY := h.posY, stopFraction := 0xFFFFFFFF, stopDwell := 0
        stopMarkX0 := if len = 0 then m.x0 else m.x1 - (m.x1 - m.x0) * total / len
        stopMarkY0 := if len = 0 then m.y0 else m.y1 - (m.y1 - m.y0) * total / len
        breakTo := some { x := m.x1, y := m.y1, mask := m.anomMask, seam := seam }
        seam := if seam then m.half else g.seam.filter fun x => !x.marked }.toNext
      { h with ppOffset := h.wordOff }

/-- A PREEMPT that is the block's last word breaks nothing: its segment ends with the block. -/
def Engine.canBreak (g : Engine) : Bool := g.inSegment && decide (g.wordOff + 1 < g.words.length)

/-- PREEMPT: a pre-emption point; inside a segment it allows a break, taken here only when a park has been
ordered or a context of higher priority waits (R41, R158). -/
def execPreempt (e : EngineId) (s : State) : Out :=
  .next <| s.onWord e fun
    | .preempt =>
      let g := s.engines[e]
      if g.canBreak then
        if g.parkAtPoint then
          some ((s.breakSegment e).parkIfDue e)
        else some ((s.modEngine e fun g => { g with ppOffset := g.wordOff + 1 }).advance e)
      else
        let s := s.modEngine e fun g => { g with ppOffset := g.wordOff + 1 }
        some ((s.advance e).atPointNow e)
    | _ => none

/-- LABEL: part and feature tag (R34). -/
def execLabel (e : EngineId) (s : State) : Out :=
  .next <| s.onWord e fun | .label p f => some (s.paramWord e (.label p f)) | _ => none

end Sys2Proof.Machine
end

