-- ==== Sys2Proof/Machine/Contexts.lean ====
section
/-!
DEFINITION. Scan contexts (chapter 7): descriptors and save areas as bytes, selection, pre-emption, spill and
fill, stops and resumes.
-/
namespace Sys2Proof.Machine

/-- A block of which a part is coverage lost, counted once (R187). -/
def State.loseBlock (s : State) (space address : Nat) : State :=
  let s := { s with layer := { s.layer with coverageLost := true } }
  if s.layer.lostBlocks.contains (space, address) then s
  else ({ s with layer := { s.layer with lostBlocks := (space, address) :: s.layer.lostBlocks } } : State).bump 0x3C10 8

/-- The seven parameter words of a parameter state, in the order of their opcodes (Table 7.2). -/
def paramWords (p : Params) : List VWord :=
  [.setMarkSpeed p.markSpeed, .setJumpLimits p.jumpSpeed p.jumpAccel p.jumpJerk p.settle, .setPower p.power,
   .setFocus p.focus, .setLaserDelays p.onDelay p.offDelay p.markDelay,
   .setCorner p.cornerAngle p.cornerDelay p.cornerScale, .setpoint p.mode p.setPoint p.bandLow p.bandHigh]

/-- Bits of the members executed (Table 7.2, GroupDone). -/
def doneMask (l : List Nat) : Nat := (l.eraseDups.map fun i => 2 ^ i).sum

/-- Bytes 0x00–0xDF of a save area (Table 7.2). -/
def areaBody (a : SaveArea) : Bytes :=
  let g := a.group.getD {}
  let ms := if a.group.isSome then g.members else []
  ((paramWords a.par).flatMap fun w => leBytes 8 (encodeWord w))
    ++ leBytes 2 g.groupId ++ leBytes 1 ms.length ++ leBytes 1 0 ++ leBytes 4 g.beginOffset
    ++ leBytes 8 (doneMask g.done)
    ++ ((List.range 64).flatMap fun i => leBytes 2 (ms.getD i 0))
    ++ leBytes 2 ((a.seam.map (·.seamId)).getD 0) ++ leBytes 1 ((a.seam.map (·.token)).getD 0)
    ++ leBytes 1 (match a.seam with | some h => 1 + 2 * b2n h.incoming | none => 0)
    ++ leBytes 4 a.dwellRemaining ++ leBytes 8 (unsigned 64 a.posX) ++ leBytes 8 (unsigned 64 a.posY)

/-- The 256 bytes of a save area (Table 7.2). -/
def areaBytes (a : SaveArea) : Bytes :=
  let b := areaBody a ++ List.replicate 28 0
  b ++ leBytes 4 (crc32c b)

/-- Code of a phase (Table 8.2). -/
def Phase.code : Phase → Nat
  | .jump => 0 | .settle => 1 | .mark => 2 | .corner => 3 | .markDelay => 4 | .dwellOn => 5 | .dwellOff => 6
  | .wait => 7 | .stopped => 8

/-- The 256 bytes of a checkpoint (R173, Table 8.2). -/
def checkpointBytes (c : Checkpoint) : Bytes :=
  let counted := c.phase == .settle || c.phase == .corner || c.phase == .markDelay
  let b := areaBody c.area ++ leBytes 8 c.update ++ leBytes 2 c.ctx ++ leBytes 2 c.wordOffset ++ leBytes 1 c.blockSlot
    ++ leBytes 1 c.phase.code ++ leBytes 2 (if counted then c.phaseRemaining else 0) ++ leBytes 4 c.markFraction
    ++ leBytes 4 c.jumpStep ++ leBytes 4 c.execUpdates
  b ++ leBytes 4 (crc32c b)

/-- A save area read back; none when its AreaCRC fails. The end of a group and its begin label are not in
the area: they are read again from the block's words when the context resumes. -/
def parseArea (b : Bytes) : Option SaveArea :=
  if leAt b 0xFC 4 ≠ crc32c (b.take 0xFC) then none
  else
    let words := (payloadWords 7 b).filterMap fun w =>
      match decodeWord w with | .ok v => some v | .error _ => none
    let n := leAt b 0x3A 1
    let st := leAt b 0xCB 1
    some
      { par := words.foldl applyParam {}
        group := if n = 0 then none else some
          { groupId := leAt b 0x38 2, beginOffset := leAt b 0x3C 4,
            members := (List.range n).map fun i => leAt b (0x48 + 2 * i) 2,
            done := (List.range n).filter fun i => bitOf (leAt b 0x40 8) i }
        seam := if bitOf st 0 then some { incoming := bitOf st 1, token := leAt b 0xCA 1, seamId := leAt b 0xC8 2 } else none
        dwellRemaining := leAt b 0xCC 4, posX := signed 64 (leAt b 0xD0 8), posY := signed 64 (leAt b 0xD8 8) }

/-- Codes of the context states (Table 7.3). -/
def ctxCode : CtxState → Nat
  | .free => 0 | .loaded => 1 | .ready => 2 | .running => 3 | .preempted => 4 | .blocked => 5 | .done => 6
  | .aborted => 7

/-- The 128 bytes of a descriptor (Table 7.1). -/
def descriptorBytes (c : Context) : Bytes :=
  let flags := 128 * b2n c.injected + 64 * b2n c.spilled + 32 * b2n c.inUnit + 16 * b2n c.brk + 8 * b2n c.powerResume
  let b := leBytes 1 (ctxCode c.st) ++ leBytes 1 c.priority ++ leBytes 1 c.space ++ leBytes 1 c.homeEngine
    ++ leBytes 1 c.engine ++ leBytes 1 flags ++ leBytes 1 c.saveSlot ++ leBytes 1 c.blockedCause
    ++ leBytes 8 c.listBase ++ leBytes 4 c.listIndex ++ leBytes 4 c.layer ++ leBytes 8 c.blockAddress
    ++ leBytes 2 c.wordOffset ++ leBytes 2 0 ++ leBytes 4 c.markFraction ++ leBytes 4 (unsigned 32 c.stopX)
    ++ leBytes 4 (unsigned 32 c.stopY) ++ leBytes 4 (unsigned 32 c.injectX) ++ leBytes 4 (unsigned 32 c.injectY)
    ++ leBytes 8 c.spillAddress ++ leBytes 2 c.partId ++ leBytes 2 0 ++ leBytes 4 c.featureTag
    ++ leBytes 8 c.stopTick ++ leBytes 4 c.preemptCount ++ leBytes 4 c.blocksDone ++ List.replicate 36 0
  b ++ leBytes 4 (crc32c b)

/-- A context as its descriptor shows it: while it runs, with the block, word and labels under execution (Table 7.1). -/
def State.descriptor (s : State) (n : Nat) : Context :=
  let c := (assocGet n s.contexts).getD {}
  if c.st != .running then c
  else
    match (List.finRange 13).find? fun e => s.engines[e].ctx.any fun x => x.val == n with
    | none => c
    | some e =>
      let g := s.engines[e]
      match g.buf.find? fun b => b.ctx == n && !b.stolen && !b.gap with
      | none => c
      | some b =>
        let c := { c with blockAddress := b.address }
        if (g.buf.head?.map (·.stolen)).getD false then c
        else { c with wordOffset := g.wordOff, partId := g.par.partId, featureTag := g.par.featureTag }

/-- The context engine e selects: the best of the READY and PREEMPTED ones assigned to it (R157). -/
def State.bestContext (s : State) (e : EngineId) : Option (Nat × Context) :=
  (s.contexts.filter fun (n, c) =>
      (c.st == .ready || c.st == .preempted) && c.owner == e.val && !s.hasRemainder n).foldl
    (fun b x => match b with | none => some x | some y => some (if goesBefore x y then x else y)) none

/-- The end and the begin label of a group, read again from the block, and the member in which the next word lies (R42). -/
def restoreGroup (ws : List VWord) (off : Nat) (g : Group) : Group :=
  let after := ws.drop (g.beginOffset + 1)
  let (ms, fin) := groupMembers g.groupId (g.beginOffset + 1) after []
  let par := (ws.take (ms.headD 0)).foldl applyParam {}
  let cur := (ms.filter fun m => decide (m ≤ off)).length - 1
  { g with
    members := ms, endOffset := fin, partId := par.partId, featureTag := par.featureTag, current := cur
    outOfOrder := g.outOfOrder || (g.done != List.range g.done.length) || decide (cur < g.done.length) }

/-- A seam half with the Overlap of its SEAM word, read again from the words before the next one, and whether its wait has
ended or its MARK been planned there (R43). -/
def restoreSeam (ws : List VWord) (off : Nat) (inUnit : Bool) (h : SeamHalf) : SeamHalf :=
  let before := (ws.take off).reverse
  let since := before.takeWhile fun w => match w with | .seam .. => false | _ => true
  let marked := since.any fun w => match w with | .mark _ true _ _ _ => true | _ => false
  match before.find? fun w => match w with | .seam .. => true | _ => false with
  | some (.seam _ _ ov _) => { h with overlap := ov, marked := marked, waited := marked || inUnit }
  | _ => h

/-- Put a selected context on an engine (R158 step 3, R160). -/
def State.startContext (s : State) (e : EngineId) (n : Nat) (c : Context) : State :=
  let buf := if c.owner == e.val then c.kept else []
  let s := s.modEngine e fun g =>
    { g with
      ctx := if h : n < 512 then some ⟨n, h⟩ else none
      buf := buf, wordOff := c.wordOffset, ppOffset := c.wordOffset
      par := match c.area with | some a => { a.par with partId := c.partId, featureTag := c.featureTag } | none => { g.par with partId := 0, featureTag := 0 }
      group := (c.area.bind (·.group)).map fun r => if buf.isEmpty then r else restoreGroup ((buf.head?.map (·.words)).getD []) c.wordOffset r
      seam := (c.area.bind (·.seam)).map fun h =>
        if c.filled && !buf.isEmpty then restoreSeam ((buf.head?.map (·.words)).getD []) c.wordOffset c.inUnit h else h
      stopInUnit := c.inUnit, stopX := (c.area.map (·.posX)).getD g.posX, stopY := (c.area.map (·.posY)).getD g.posY
      stopMarkX0 := c.markX0, stopMarkY0 := c.markY0, stopFraction := c.markFraction, breakTo := c.breakTo
      stopDwell := (c.area.map (·.dwellRemaining)).getD 0
      backTo := c.area.map fun a => (a.posX, a.posY)
      gateSincePoint := false, inSegment := false, atPoint := true, wait := .none, layerDone := false
      firstJumpDone := c.jumped, execStart := g.planEnd, waitUpdates := 0, ranBefore := c.ran }
  (s.modCtx n fun c =>
    { c with st := .running, engine := e.val, saveSlot := 255, area := none, kept := [], brk := false, powerResume := false
             ran := 0, jumped := false, breakTo := none, filled := false, noSpill := false }).passEmpty e 4

/-- Engine e selects a context; one whose save area is spilled becomes BLOCKED until it is filled (R157,
R161). An engine whose reserved slot is in use selects none (R159). -/
def State.select (s : State) (e : EngineId) : Nat → State × Bool
  | 0 => (s, false)
  | f + 1 =>
    if reserveInUse s.contexts e then (s, false)
    else
      match s.bestContext e with
      | none => (s, false)
      | some (n, c) =>
        if c.spilled then
          (s.modCtx n fun c => { c with before := c.st, st := .blocked, blockedCause := 3 }).select e f
        else (s.startContext e n c, true)

/-- Every context of an engine has ended. -/
def State.allDone (s : State) (e : EngineId) : Bool :=
  s.contexts.all fun x => x.2.owner != e.val || x.2.st == .done || x.2.st == .aborted || x.2.st == .free

/-- The engine leaves the layer (Table 3.2). -/
def State.leaveLayer (s : State) (e : EngineId) (cause : Nat) : State :=
  let s := s.modEngine e fun g =>
    { g with layerDone := true, wait := .none, parkAtPoint := false, readyTimer := none, forcedTimer := none }
  s.setEff e .armed cause

/-- A stolen block waits for the engine: queued, in its fetch stream, or decoded (R107). -/
def State.stolenWaiting (s : State) (e : EngineId) : Bool :=
  !s.engines[e].stolenQ.isEmpty || (s.fetched.any fun x => x.1 == e && x.2.1.stolen)
    || (s.engines[e].buf.drop 1).any fun b => b.stolen

/-- Work of a failed engine that engine e may take (R186). -/
def State.requeuedFor (s : State) (e : EngineId) : Option Remainder :=
  match s.engines[e].routed with
  | none => none
  | some p => s.remainders.find? fun r => r.anyEngine && r.engine != e.val && eligible r.block.header p.val

/-- Engine e has work in the layer that it cannot run now: a re-queued remainder of its own, work of a failed
engine that it may take, a stolen block, or a context that waits for its area or a fault (R102, R106, R186). -/
def State.heldUp (s : State) (e : EngineId) : Bool :=
  (s.remainders.any fun r => r.engine == e.val && !r.anyEngine) || (s.requeuedFor e).isSome || s.stolenWaiting e
    || s.contexts.any fun x => x.2.owner == e.val && x.2.st == .blocked

/-- After a context has left an engine, it runs another of its contexts, waits in PARKED for work held up (R102), or leaves the
layer (R157). Table 3.2 has RUNNING to PARKED for a park by the arbiter only; Table 3.1 calls PARKED an engine stopped with work
re-queued (DEDUCED, row 107). -/
def State.nextContext (s : State) (e : EngineId) : State :=
  let (t, ok) := s.select e s.contexts.length
  if ok then t else if t.heldUp e then t.setEff e .parked 0 else t.leaveLayer e 0

/-- An engine with no running context: in PARKED it runs a stolen block at the head of its buffer, takes another of its
contexts or, with no work of its own left in the layer, leaves it (R102, R106, R157, Table 3.2); in STALLED it selects the
context whose work it will resume; in ARMED it goes to IDLE when every context of it has ended. -/
def State.selectIdle (s : State) (e : EngineId) : State :=
  let g := s.engines[e]
  if s.modState != .building || g.ctx.isSome then s
  else
    match s.eff e with
    | .parked =>
      if g.buf.isEmpty then
        let (t, ok) := s.select e s.contexts.length
        if ok then t.setEff e .running 0 else if t.heldUp e then t else t.leaveLayer e 0
      else if (g.buf.head?.map (·.stolen)).getD false && !reserveInUse s.contexts e then
        (s.setEff e .running 0).modEngine e fun g =>
          ({ g with wordOff := 0, ppOffset := 0, par := { g.par with partId := 0, featureTag := 0 } } : Engine).runsOn false 0
      else s
    | .stalled => if g.buf.isEmpty then (s.select e s.contexts.length).1 else s
    | .armed => if s.allDone e then s.setEff e .idle 0 else s
    | _ => s

/-- The engine is at a pre-emption point: its set-points reach the end of a mark segment or a PREEMPT, or it has
run no motion since; in YIELDING it stands at its last point (R41, R158). -/
def State.atPreemptionPoint (s : State) (e : EngineId) : Bool :=
  let g := s.engines[e]
  match s.eff e with
  | .yielding => g.standsAtPoint
  | .running =>
    g.wait == .none && s.claimReached e && (g.word == some .preempt || (if g.inSegment then g.word.any endsSegment else g.atPoint))
  | _ => false

/-- Leave the context at the point: the segment ends, and the context goes on at the word after the point (R158). -/
def State.leaveAtPoint (s : State) (e : EngineId) : State :=
  let s := s.closeSegment e
  s.modEngine e fun g =>
    let off := if g.word == some .preempt then g.wordOff else g.ppOffset
    let g := { g with ppOffset := off, wordOff := off, par := replayParams g.words off }
    -- an exposure unit not yet taken up again keeps its stop (R160)
    if g.stopInUnit then g else { g with stopX := g.here.1, stopY := g.here.2, stopFraction := 0, stopDwell := 0 }

/-- The pre-emption point at which an engine stands, or which its next word makes. -/
def Engine.pointKey (g : Engine) : Nat × Nat :=
  (g.blockNo, if g.word == some .preempt then g.wordOff + 1 else if g.inSegment then g.wordOff else g.ppOffset)

/-- PREEMPTION: at a pre-emption point the engine leaves its context for one of higher priority (R158); with
no unreserved slot it defers (R159). An engine without a running context selects one (R157). -/
def execPreemption (e : EngineId) (s : State) : Out :=
  let g := s.engines[e]
  match g.ctx, s.bestContext e with
  | some c, some (n, x) =>
    let prio := match assocGet c.val s.contexts with | some y => y.priority | none => 0
    let breaks := g.canBreak && g.word == some .preempt
    if x.priority ≤ prio || !s.atPreemptionPoint e then .next s
    else if g.deferredAt = some g.pointKey then .next s
    else if (freeSlot s.contexts).isNone then
      .next (((s.bump 0x3D00 5).emit 0x3305 e.val [e.val, c.val, freeSlots s.contexts]).modEngine e fun g =>
        { g with deferredAt := some g.pointKey })
    else
      let s := if breaks then s.breakSegment e else s.leaveAtPoint e
      let g := s.engines[e]
      let s := s.emit 0x3301 e.val [e.val, c.val, n, (g.buf.head?.map (·.address)).getD 0, g.wordOff, if breaks then 1 else 0]
      let s := ((s.endClaimWait e).dropClaims e).saveContext e ((freeSlot s.contexts).getD 255) id
      let (t, ok) := s.select e s.contexts.length
      if ok then .next ((t.setEff e .running 0).modEngine e fun g => { g with wait := .none })
      else .next t
  | none, _ => .next (s.selectIdle e)
  | _, none => .next s

/-- Where a context's area goes in its spill region (R161). -/
def State.spillAddress (s : State) (n : Nat) (c : Context) : Nat :=
  s.spillBase.toList.getD (c.space % 64) 0 + 256 * n

/-- A spill is abandoned: the area stays on chip, record 0x3304 (Table 7.8). -/
def State.spillAbandoned (s : State) (n : Nat) : State :=
  (s.modCtx n fun c => { c with noSpill := true }).emit 0x3304 255
    [n, 0, ((assocGet n s.contexts).getD {}).blockAddress]

/-- The area of the context idle longest goes to memory; its slot is released once the copy reads back with a correct
AreaCRC. A fault keeps it on chip until it is resolved (R161, Table 7.8). -/
def State.spillOne (s : State) : Out :=
  if 16 ≤ freeSlots s.contexts then .next s
  else
    let cand := s.contexts.filter fun (_, c) =>
      (c.st == .preempted || c.st == .blocked) && c.saveSlot < 96 && !c.spilled && !c.noSpill && c.area.isSome
    match cand.foldl (fun b x => match b with
        | none => some x
        | some (y : Nat × Context) => some (if x.2.stopTick < y.2.stopTick then x else y)) none with
    | none => .next s
    | some (n, c) =>
      let va := s.spillAddress n c
      if s.faultHeld .spill 255 c.space va then .next s
      else match s.translate .spill c.space va true with
      | (s, .error (lvl, cause)) => .next (s.raiseFault .spill 255 c.space va true lvl cause 0)
      | (s, .ok p) =>
        let s := (s.storePhys p (areaBytes (c.area.getD {}))).1
        match (s.readPhys .spill p 256).2.bind parseArea with
        | none => .next ((s.readPhys .spill p 256).1.spillAbandoned n)
        | some _ =>
          .next ((s.modCtx n fun c =>
            { c with spilled := true, saveSlot := 255, area := none, spillAddress := va }).bump 0x3D00 3)

/-- The save area of a context is lost: it goes on at its list's next entry, and the rest of its block is
coverage lost (R161). -/
def State.areaLost (s : State) (n op : Nat) : State :=
  match assocGet n s.contexts with
  | none => s
  | some c =>
    let s := s.loseBlock c.space c.blockAddress
    let last := ((s.headerBytes c.space c.blockAddress).map fun b => Machine.lastInLayer (parseHeader b)).getD false
    let s := s.modCtx n fun c =>
      { c with
        st := if last then .loaded else if c.st = .blocked then c.before else c.st
        spilled := false, area := none, kept := [], blockedCause := 0, inUnit := false, brk := false, breakTo := none
        saveSlot := 255
        listIndex := c.nextIndex, wordOffset := 0, markFraction := 0 }
    s.emit 0x3304 255 [n, op, c.blockAddress]

/-- CONTEXT_SPILL (R161). -/
def execContextSpill (s : State) : Out := s.spillOne

/-- CONTEXT_FILL: a spilled area returns to a slot and the context to the state it held; a wrong AreaCRC loses
the area; a fault holds the fill (R161, Table 7.8). An uncorrectable error in a context-RAM word loses the area that the
word belongs to (operation 2 of record 0x3304). -/
def execContextFill (a : AreaRead) (s : State) : Out :=
  match assocGet a.ctx.val s.contexts with
  | none => .next s
  | some c =>
    if a.ramError then (if c.area.isSome && c.st != .running then .next (s.areaLost a.ctx.val 2) else .next s)
    else if c.st != .blocked || c.blockedCause != 3 || !c.spilled then .next s
    else if s.faultHeld .spill 255 c.space c.spillAddress then .next s
    else
      match s.translate .spill c.space c.spillAddress false with
      | (s, .error (lvl, cause)) => .next (s.raiseFault .spill 255 c.space c.spillAddress false lvl cause 0)
      | (s, .ok p) =>
        match (s.readPhys .spill p 256).2.bind parseArea with
        | none => .next ((s.readPhys .spill p 256).1.areaLost a.ctx.val 1)
        | some x =>
          -- the reserves of R159 are for saves only
          match freeSlot s.contexts with
          | none => .next s
          | some slot => .next ((s.modCtx a.ctx.val fun c =>
            { c with spilled := false, saveSlot := slot, area := some x, st := c.before, blockedCause := 0,
                     spillAddress := 0, filled := true }).bump 0x3D00 4)

/-- Stop an engine for lack of work or of its laser (R162, R86): STALLED, event 0x3302. -/
def State.stallEngine (s : State) (e : EngineId) (cause : Nat) (laser : Bool) : State :=
  let g := s.engines[e]
  let waiting := match g.wait with | .claim _ => true | _ => false
  let s := s.endClaimWait e
  let fall := tickOf8 (320 * s.stopUpdate e + s.gateAlign e)
  let s := s.stopEngine e
  let s := s.endClaims e fall
  let s := if waiting && !g.inSegment then s.modEngine e fun g => { g with stopInUnit := false } else s
  let s := s.setEff e .stalled cause
  let s := s.modEngine e fun g => { g with stallLaser := laser }
  let g := s.engines[e]
  -- the stop's set-point is where the engine stands; a stop in a resume jump goes on from the old stop point (R162)
  let s := match g.ctx with
    | some c => s.modCtx c.val fun x =>
        { x with stopX := bedUnit g.posX, stopY := bedUnit g.posY, markFraction := g.stopFraction,
                 inUnit := g.stopInUnit, stopTick := s.tick, wordOffset := g.wordOff, brk := g.breakTo.isSome
                 saveSlot := saveSlotFor s.contexts e, area := some (g.area g.stopDwell) }
    | none => s
  s.emit 0x3302 e.val [e.val, (g.ctx.map (fun (c : CtxId) => (c.val : Int))).getD 65535, bedUnit g.posX, bedUnit g.posY, cause]

/-- BUFFER_EMPTY_STALL: an engine in RUNNING with no decoded work left stops (R23, R162). -/
def execBufferEmptyStall (e : EngineId) (s : State) : Out :=
  if s.eff e = .running && s.engines[e].noWork && decide (s.engines[e].planEnd ≤ upd * s.update) then
    -- with its borrowed or stolen block done, an engine without a context takes its next one
    if s.engines[e].ctx.isNone && s.engines[e].buf.isEmpty && !s.stolenWaiting e then .next (s.nextContext e)
    else .next (s.stallEngine e 0x0000 false)
  else .next s

/-- Resume a stalled engine (R160, R162): event 0x3303 with the restart point and the stop's length. -/
def State.resumeEngine (s : State) (e : EngineId) : State :=
  let g := s.engines[e]
  let (rx, ry, _) := g.restart
  let p := if g.stopInUnit then (bedUnit rx, bedUnit ry) else (bedUnit g.stopX, bedUnit g.stopY)
  let s := s.setEff e .running 0
  let s := s.modEngine e fun g => { g with stallLaser := false, wait := .none, readyTimer := none }
  let s := match g.ctx with
    | some c => s.modCtx c.val fun x => { x with saveSlot := 255, area := none }
    | none => s
  s.emit 0x3303 e.val [e.val, (g.ctx.map (fun (c : CtxId) => (c.val : Int))).getD 65535, p.1, p.2, s.tick - g.stopTick]

/-- The laser an engine drives is available. -/
def State.laserReady (s : State) (e : EngineId) : Bool :=
  match s.engines[e].routed with
  | some p => s.lasers[p].available
  | none => false

/-- STALL_RESUME: work is present again and the laser available (Table 3.2, R160). -/
def execStallResume (e : EngineId) (s : State) : Out :=
  if s.eff e = .stalled && !s.engines[e].noWork && s.laserReady e then .next (s.resumeEngine e)
  else .next s

end Sys2Proof.Machine
end

