-- ==== Sys2Proof/Machine/ModuleState.lean ====
section
/-!
DEFINITION. Entries of the module states (R24 to R26, R94, R162, R234, R259, R328, R344 to R348, R355, R356,
R390, R391): what each transition does to engines, ports, axes, sessions and stored state.
-/
namespace Sys2Proof.Machine

/-- States in which a calibration procedure may run (Table 9.4). -/
def calAllowed (code : Nat) (st : ModState) : Bool :=
  if code = 0x09 then st == .ready || st == .service
  else if code = 0x0A then st == .ready
  else if code = 0x0B then st == .ready || st == .armed || st == .building || st == .paused
  else st == .service

/-- A provisional record goes when SERVICE is left (R197): the valid working copy of higher Generation is in
force again, and the link starts anew to check it. -/
def State.dropProvisional (s : State) (p : LaserId) : State :=
  match s.records[p.val]'(by have := p.isLt; omega) with
  | some r =>
    if !r.provisional then s
    else
      let old := match assocGet p.val s.nv.copyA, assocGet p.val s.nv.copyB with
        | some a, some b => some (if a.generation < b.generation then b else a)
        | some a, none => some a
        | none, b => b
      let s := { s with records := s.records.set p.val old (by have := p.isLt; omega) }
      s.modLaser p fun l => { l with lost := l.lost || l.available, available := false, link := .off, linkTimer := none, retryTimer := none }
  | none => s

/-- What a transition does to calibration: a procedure not permitted in the new state must end (R195); leaving
SERVICE discards results and provisional records (R196, R197). -/
def State.calLeave (s : State) (st : ModState) : State :=
  let s := if s.cal.running && !calAllowed s.cal.procedure st then { s with cal := { s.cal with abort := some 1 } } else s
  if s.modState = .service ∧ st ≠ .service then
    let s := if s.cal.state = 3 then { s with cal := { s.cal with state := 0, pending := [] } } else s
    State.foldFin 12 s fun p s => s.dropProvisional p
  else s

/-- ClockRole and the port entries take effect (R296). -/
def State.takePtp (s : State) : State :=
  { s with time := { s.time with
      role := s.nat 0x8001 1
      portDict := s.dict.filter fun x => x.1 / 256 == 0x8010 || x.1 / 256 == 0x8011 || x.1 / 256 == 0x8012
      ports := Vector.ofFn fun (p : Fin 3) =>
        { s.time.ports[p] with enabled := s.nat (0x8010 + p.val) 1 == 1, mechanism := s.nat (0x8010 + p.val) 2 } } }

/-- A trial image has reached READY: its slot is the active one, and RollbackFloor rises to its SecurityVersion, at most
64 times (R370). -/
def State.trialReady (s : State) : State :=
  match s.nv.trialSlot with
  | none => s
  | some t =>
    if s.nv.trialStarted && s.sec.slot == t && !s.recovery then
      let v := ((s.nv.slots[t]?).map (·.securityVersion)).getD 0
      let up := decide (s.nv.rollbackFloor < v) && decide (s.nv.floorRaises < 64)
      { s with nv := { s.nv with
          activeSlot := t, trialSlot := none, trialStarted := false
          rollbackFloor := if up then v else s.nv.rollbackFloor, floorRaises := s.nv.floorRaises + b2n up } }
    else s

/-- A transition of Table 1.6: PreviousState, TransitionCause, StateEntryTick and record 0x2101. -/
def State.goto (s : State) (st : ModState) (cause : Nat) : State :=
  let s := s.calLeave st
  let s := if st = .ready then s.takePtp.trialReady else s
  ({ s with prevState := s.modState, modState := st, cause := cause, entryTick := s.tick } : State).emit 0x2101 255
    [s.modState.code, st.code, cause]

/-- Every LGATE off now, every power value 0 (R84). -/
def State.gatesOff (s : State) : State :=
  (s.mapEngines fun g => g.gateOffAt (8 * s.tick)).mapLasers fun l =>
    { l with lgate := false, lpwr := 0, pwrQ := [] }

/-- Every EMIT_EN off (R83, R84). -/
def State.emitOff (s : State) : State := s.mapLasers fun l => { l with emitEn := false }

/-- A session ends: its subscriptions and staged writes go with it (R266, R390); record 0x1102. With the last one the time
without a host begins (R275). -/
def State.endSession (s : State) (q : Sess) (cause : Nat) : State :=
  match s.sessions[q] with
  | none => s
  | some x =>
    let t := ({ s with sessions := s.sessions.set q none } : State).emit 0x1102 q.val [q.val, x.peer, cause]
    if t.sessions.toList.all (·.isNone) then { t with layer := { t.layer with hostLossTimer := some t.tick } } else t

/-- Every session ends (R390, R371, R372). -/
def State.endSessions (s : State) (cause : Nat) : State := State.foldFin 16 s fun q s => s.endSession q cause

/-- Sessions open (0x1017.01). -/
def State.openSessions (s : State) : Nat := (s.sessions.toList.filter (·.isSome)).length

/-- An engine is checkpointed on entry to SAFE, HOLDUP or THERMAL_OFF: PARKED at its stop point, its context
PREEMPTED with POWER_RESUME, its claims gone (Table 3.2, R94, R159, R162). -/
def State.checkpointEngine (s : State) (e : EngineId) : State :=
  match s.workState e with
  | .running | .yielding | .stalled =>
    -- in the takeover gap CE12 stands at the stop point that it restored (R177)
    let s := if s.inGap e || s.eff e = .stalled then s else s.stopEngine e
    let s := s.saveContext e (saveSlotFor s.contexts e) fun x => { x with powerResume := true }
    let s := if s.inGap e then s.endGapWork .parked else s.setEff e .parked s.cause
    s.modEngine e fun g => { g with claimId := none, claimGranted := false, wait := .none, parkAtPoint := false }
  | .parked | .armed =>
    s.modEngine e fun g => { g with claimId := none, claimGranted := false, wait := .none, parkAtPoint := false }
  | _ => s

/-- Every engine is checkpointed and every claim released or discarded (R94). -/
def State.checkpointEngines (s : State) : State :=
  { (State.foldFin 13 s fun e s => s.checkpointEngine e) with claims := [], remainders := [] }

/-- The newest valid checkpoint of an engine at or before its stop update (R347, R177). -/
def newestCheckpoint (l : List Checkpoint) (k : Nat) : Option Checkpoint :=
  (l.filter fun c => c.valid && decide (c.update ≤ k)).foldl
    (fun b x => match b with | none => some x | some y => some (if y.update < x.update then x else y)) none

/-- Calibration records as the resume record notes them (R347). -/
def State.calMarks (s : State) : List (Nat × Nat) :=
  s.records.toList.map fun r =>
    match r with
    | some c => (if c.provisional then 2 else if c.factory then 3 else 1, c.generation)
    | none => (0, 0)

/-- The package identity in force (R347, R366): the ContentDigest. -/
def State.digest (s : State) : Bytes := (s.pkg.inForce.map (·.digest)).getD []

/-- What the resume copier writes (R347). Checkpoints are filed under the engine CE12 stands in for; spilled
areas are read from working memory, which a clock-monitor RESET leaves without a clock. -/
def State.resumeImage (s : State) (cause : Nat) (paused : Bool) (stops : List (Nat × Nat)) : ResumeRec :=
  { cause := cause, layer := s.layer.number, paused := paused, digest := s.digest, pCrc := s.pCrc,
    cal := s.calMarks
    contexts := (s.contexts.filter fun x => x.2.st != .free).map fun (n, c) =>
      if c.spilled && cause != 0x04 then
        (n, { c with area := (s.physOf c.space c.spillAddress false).bind fun p => parseArea (memReadN s.mem p 256), spilled := false })
      else (n, c)
    checkpoints := stops.filterMap fun (e, k) =>
      if h : e < 13 then
        if s.engines[e].routed.isSome then
          (newestCheckpoint s.engines[e].checkpoints k).map fun c => (s.rankOf ⟨e, h⟩, c)
        else none
      else none
    spilledAbsent := if cause = 0x04 then (s.contexts.filter fun x => x.2.spilled).map (·.1) else [] }

/-- Stop updates of the engines (R162). -/
def State.stopUpdates (s : State) : List (Nat × Nat) :=
  (List.finRange 13).map fun e => (e.val, s.stopUpdate e)

/-- The resume copier starts, in BUILDING and PAUSED (R346): it has 4 ms, and runs once for an interruption. -/
def State.startCopier (s : State) (cause : Nat) (stops : List (Nat × Nat)) (paused : Bool) : State :=
  if s.supply.copierPending.isSome then s
  else { s with supply := { s.supply with
      copierPending := some (s.resumeImage cause paused stops), copierUntil := some (s.tick + msTicks 4) } }

/-- A build is interrupted: the copier runs on entries from BUILDING and PAUSED (R346). -/
def State.inBuild (s : State) : Bool := s.modState == .building || s.modState == .paused

/-- Engines are checkpointed and, in a build, the copier takes the result (R346, R347). -/
def State.interrupt (s : State) (cause : Nat) : State :=
  let build := s.inBuild
  let paused := s.modState == .paused
  let stops := s.stopUpdates
  let s := s.checkpointEngines
  if build then s.startCopier cause stops paused else s

/-- A moving axis makes a controlled stop and stays enabled (R259). -/
def Axis.controlledStop (a : Axis) : Axis :=
  match a.st with
  | .moving | .homing | .slaved | .stopping => { a with st := .stopping, motive := .halt, stopFault := a.st == .stopping && a.stopFault, replan := true, outstanding := 0 }
  | _ => a

/-- An axis stops emitting without a ramp: phase outputs low, ENA off, BRAKE engaged (R259). -/
def Axis.cut (a : Axis) : Axis :=
  { a with st := .disabled, vel := 0, acc := 0, motive := .rest, enaOn := false, brakeOn := true, brakeOverload := false, brakeAt := none,
           doneAt := none, enaOffAt := none, phaseA := 0, phaseB := 0, outstanding := 0 }

/-- Every axis stops emitting; CommandPos goes to PowerLossPos in MRAM (R259). -/
def State.cutAxes (s : State) : State :=
  { s with axes := s.axes.map Axis.cut, nv := { s.nv with powerLossPos := s.axes.map fun a => bedUnit a.pos } }

/-- Keep a SAFE cause (R391). -/
def State.addSafeCause (s : State) (c : SafeCause) : State :=
  if s.safeCauses.contains c then s else { s with safeCauses := s.safeCauses ++ [c] }

/-- States from which a fault leads to SAFE (Table 1.6). -/
def canEnterSafe : ModState → Bool
  | .selftest | .ready | .armed | .building | .paused | .service => true
  | _ => false

/-- Enter SAFE with a status code and a cause (Table 1.6, R391); from BOOT only the recovery image does. In SAFE the cause
is added to those kept. A RESET that waits for the copier has been taken before it (R26). -/
def State.enterSafe (s : State) (status : Nat) (c : SafeCause) : State :=
  if s.modState = .safe then s.addSafeCause c
  else if s.supply.resetHeld.isSome then s
  else if canEnterSafe s.modState || (s.modState == .boot && c == .recovery) then
    let s := ({ s with safeCauses := [] } : State).addSafeCause c
    let s := ({ s with cause := status } : State).interrupt 0x01
    let s := (s.gatesOff).emitOff
    let s := s.mapAxes Axis.controlledStop
    let s := { s with layer := { s.layer with pauseRequested := false } }
    s.goto .safe status
  else s

/-- A fault of a kind is absorbed (Table 8.5); one of another kind before RESET has cleared the first leads to SAFE, while
a second one of its kind has the rule of that kind (R185, R186; row 117). -/
def State.noteFault (s : State) (kind : Nat) : State :=
  match s.supply.firstFault with
  | none => { s with supply := { s.supply with firstFault := some kind } }
  | some k => if k = kind then s else s.enterSafe 0x0605 .outsideContinuity

/-- A compression job ends with a status: LastTag, LastStatus and, but for 0, record 0xD102 (R328). -/
def State.endJob (s : State) (j : CompJob) (status : Nat) : State :=
  let s := (({ s with jobs := s.jobs.erase j } : State).put 0xD000 3 j.tag).put 0xD000 4 status
  if status = 0 then s else s.emit 0xD102 255 [j.tag, status, j.progress, j.outBytes]

/-- Every job of the compression engine ends with a status (R328). -/
def State.endJobs (s : State) (status : Nat) : State := s.jobs.foldl (fun s j => s.endJob j status) s

/-- Imaging goes off (R234, R344): strings and columns off, triggers low, frames in progress end with BAD set. -/
def State.imagingOff (s : State) : State :=
  let s := State.foldFin 5 s fun p s => (s.endFrame p true true).modCam p fun c => 
    { c with trig := false, trigUntil := none, request := false, strobe := false }
  { s with petals := s.petals.map fun p => { p with duty := [], strobe := [] } }

/-- The load is shed (R344, R207): cameras, compositor, DisplayPort and ring go off, compression jobs end. -/
def State.shedLoad (s : State) : State :=
  let s := (s.endJobs 0x0604).imagingOff
  { s with ringUp := 0, supply := { s.supply with shed := true } }

/-- Enter HOLDUP (R342, R344): gates, power and EMIT_EN off, engines PARKED, axes cut, the load shed, jobs and
sessions ended, the copier started. -/
def State.enterHoldup (s : State) : State :=
  let s := ({ s with cause := 0x0604 } : State).interrupt 0x02
  let s := ((s.gatesOff).emitOff).cutAxes
  let s := (s.shedLoad).endSessions 4
  let s := { s with
    nv := { s.nv with holdupCount := s.nv.holdupCount + 1 }
    supply := { s.supply with inputsCut := true, holdupAt := s.tick, railsOff := false, mramStopped := false } }
  s.goto .holdup 0x0604

/-- Enter THERMAL_OFF (R355). -/
def State.enterThermalOff (s : State) : State :=
  let s := ({ s with cause := 0x0603 } : State).interrupt 0x03
  let s := ((s.gatesOff).emitOff).cutAxes
  let s := (s.shedLoad).endSessions 4
  let s := { s with
    nv := { s.nv with thermalOffCount := s.nv.thermalOffCount + 1 }
    supply := { s.supply with roundPeriod := 500, resetHeld := none } }
  s.goto .thermalOff 0x0603

/-- What RESET leaves (R25, R356): everything volatile as after reset; flash, MRAM, fuses and the Cowslip
domain, the supply readings, the tick counter and the copier stay. -/
def State.resetVolatile (s : State) : State :=
  { State.reset with
    pending := s.pending, free := s.free, tick := s.tick, nv := s.nv, answer := s.answer
    -- ledger time begins again at 0 (R122); the model takes its 0 at the entry where the PLL stays locked (row 112)
    ledger := { ({} : LedgerSt) with zero := s.tick }
    supply := { ({} : SupplySt) with
      mvA := s.supply.mvA, mvB := s.supply.mvB, bankMv := s.supply.bankMv, goodA := s.supply.goodA
      goodB := s.supply.goodB, charged := s.supply.charged, pllLocked := s.supply.pllLocked
      refPresent := s.supply.refPresent, temps := s.supply.temps, copierPending := s.supply.copierPending
      copierUntil := s.supply.copierUntil, vioMv := s.supply.vioMv, vioGood := s.supply.vioGood }
    sec := { ({} : SecSt) with tamperInputs := s.sec.tamperInputs } }

/-- Enter RESET with a ResetCause (Table 17.5): every session ends, axes are cut, staged changes are gone. TransitionCause
is `status`; for a RESET that no command asked for the spec names no code, and callers give 0x0000 (DESIGN CHOICE, row
101). -/
def State.enterReset (s : State) (code status : Nat) : State :=
  let s := ((s.gatesOff).emitOff).cutAxes
  let old := s.modState
  let t := s.resetVolatile
  let t := { t with supply := { t.supply with resetCause := code }, nv := { t.nv with endCause := code } }
  ({ t with prevState := old, modState := .reset, cause := status, entryTick := s.tick } : State).emit 0x2101 255
    [old.code, 0x01, status]

/-- A RESET that waits for the resume copier when a build is interrupted (R346). -/
def State.resetAfterCopier (s : State) (code status resumeCause : Nat) : State :=
  if s.inBuild then
    let s := ({ s with cause := status } : State).interrupt resumeCause
    let s := (s.gatesOff).emitOff
    { s with supply := { s.supply with resetHeld := some code } }
  else s.enterReset code status

/-- RESUME_COPY: the copier completes the resume record (R347), record 0x2102; a RESET held for it follows
(R346). -/
def execResumeCopy (s : State) : Out :=
  match s.supply.copierPending with
  | none => .next s
  | some r =>
    let s := { s with
      nv := { s.nv with resume := some r }
      supply := { s.supply with copierPending := none, copierUntil := none } }
    let s := s.emit 0x2102 255 [r.cause, r.layer, r.contexts.length, r.spilledAbsent.length]
    let s := if s.modState = .holdup then { s with dram := s.dram.map fun d => { d with selfRefresh := true } } else s
    match s.supply.resetHeld with
    | some code => .next (s.enterReset code 0x0000)
    | none => .next s

/-- OFF: every rail is off; what is not retained is gone (R6, R358). -/
def State.enterOff (s : State) : State :=
  let old := s.modState
  let t := s.resetVolatile
  { t with
    prevState := old, modState := .off, entryTick := s.tick
    supply := { t.supply with copierPending := none, copierUntil := none, pllLocked := false } }

/-- The stored resume record goes (R348): record 0x2104 with its cause 0 START, 1 plain ARM, 2 ResumeDiscard. -/
def State.discardResume (s : State) (cause : Nat) : State :=
  match s.nv.resume with
  | none => s
  | some _ =>
    ({ s with nv := { s.nv with resume := none }, resumeAvailable := false } : State).emit 0x2104 255 [cause]

/-- RESUME_ARM: a write of ResumeArm (R348). -/
def execResumeArm (q : Sess) (v : Byte) (s : State) : Out :=
  .next <| s.host q 0x2004 0x01 v.toNat fun s =>
    if v.toNat > 1 then refused s 0x0201 else accepted { s with resumeArm := v == 1 }

/-- RESUME_DISCARD: a write of 1 discards the record (R348). -/
def execResumeDiscard (q : Sess) (v : Byte) (s : State) : Out :=
  .next <| s.host q 0x2004 0x05 v.toNat fun s =>
    if v.toNat > 1 then refused s 0x0201
    else if v = 1 then accepted (s.discardResume 2) else accepted s

end Sys2Proof.Machine
end

