-- ==== Sys2Proof/Machine/Fetch.lean ====
section
/-!
DEFINITION. Fetch and inflation of scan blocks (R18, R50 to R52, R165, R319, R320): Q_FETCH, the retries, the
placeholder of a rejected block, and the removal of an inflater.
-/
namespace Sys2Proof.Machine

/-- Outcome of reading a virtual range. -/
inductive ReadResult where
  | ok (b : Bytes)
  | fault (va level cause : Nat)
  | bad
  deriving DecidableEq, Repr

/-- Read a virtual range page by page through the TLBs of a master. -/
def State.readRange (s : State) (m : Master) (space : Nat) : Nat → Nat → Nat → State × ReadResult
  | 0, _, _ => (s, .ok [])
  | f + 1, va, n =>
    if n = 0 then (s, .ok [])
    else
      let k := min n (65536 - va % 65536)
      match s.translate m space va false with
      | (s, .error (l, c)) => (s, .fault va l c)
      | (s, .ok p) =>
        match s.readPhys m p k with
        | (s, none) => (s, .bad)
        | (s, some a) =>
          match s.readRange m space f (va + k) (n - k) with
          | (s, .ok b) => (s, .ok (a ++ b))
          | r => r

/-- Write octets to a virtual range page by page; `bad` where part of a poisoned line would be written (R314). -/
def State.writeRange (s : State) (m : Master) (space : Nat) : Nat → Nat → Bytes → State × ReadResult
  | 0, _, _ => (s, .ok [])
  | f + 1, va, b =>
    if b.isEmpty then (s, .ok [])
    else
      let k := min b.length (65536 - va % 65536)
      match s.translate m space va true with
      | (s, .error (l, c)) => (s, .fault va l c)
      | (s, .ok p) =>
        match s.storePhys p (b.take k) with
        | (s, false) => (s, .bad)
        | (s, true) => s.writeRange m space f (va + k) (b.drop k)

/-- A block's header and payload from working memory. -/
def State.readBlock (s : State) (space va : Nat) : State × ReadResult :=
  match s.readRange .fetch space 2 va 32 with
  | (s, .ok hb) =>
    let h := parseHeader hb
    if h.headerCrc ≠ crc32c (hb.take 0x1C) then (s, .bad)
    else
      match s.readRange .fetch space 3 (va + 32) h.compressedLength with
      | (s, .ok b) => (s, .ok (hb ++ b))
      | r => r
  | r => r

/-- Plaintext of a package section, decrypted from its ciphertext (R367). -/
def openSection (key : Bytes) (raw : Bytes) (x : PkgSection) : Option Bytes :=
  Config.gcmOpen key x.nonce (x.entry.take 0x28) (slice raw x.offset x.length) x.tag

/-- The content key of a package (R367). -/
def State.contentKeyOf (s : State) (p : Package) : Bytes :=
  Config.contentKey (s.nv.packageKey.getD []) p.ephemeral p.packageId

/-- Octets up to a whole line. -/
def pad64 (b : Bytes) : Bytes := b ++ List.replicate ((64 - b.length % 64) % 64) 0

/-- The security unit writes one page of a section; a page that is not mapped faults, and its decryption waits (Table
7.8). -/
def State.writeSection (s : State) (space va : Nat) (b : Bytes) : State :=
  match s.translate .security space va true with
  | (s, .ok q) => (s.storePhys q (pad64 b)).1
  | (s, .error (l, c)) => s.faultOnce .security 255 space va true l c 0

/-- Decrypt again, from the flash package cache, the section that holds a virtual address (R51 step 2,
R166). -/
def State.redecrypt (s : State) (space va : Nat) : State :=
  match s.pkg.inForce with
  | none => s
  | some p =>
    match p.sections.find? fun x => x.kind == 2 && x.space == space && decide (x.va ≤ va) && decide (va < x.va + x.length) with
    | none => s
    | some x =>
      match openSection (s.contentKeyOf p) s.nv.cache x with
      | none => s
      | some b =>
        (List.range (ceilDiv b.length 65536)).foldl (fun s i =>
          s.writeSection x.space (x.va + 65536 * i) (slice b (65536 * i) 65536)) s

/-- The engine serves a laser or CE12 stands in. -/
def State.inService (s : State) (e : EngineId) : Bool :=
  match s.engines[e].st with
  | .fault | .spare | .trim => false
  | _ => true

/-- The context whose blocks an engine fetches: the running one, else the one it would run next. -/
def State.fetchContext (s : State) (e : EngineId) : Option (Nat × Context) :=
  match s.engines[e].ctx with
  | some c => (assocGet c.val s.contexts).map fun x => (c.val, x)
  | none => s.contextAhead e

/-- Q_FETCH credits that an engine has spent and that have not come back before this tick (R13, R15); a block whose
fetch has faulted keeps its credit (R165). -/
def State.fetchLoad (s : State) (e : EngineId) : Nat := (s.fetched.filter fun x => x.1 == e).length + s.freedOf 1 e.val

/-- Block-buffer slots in use for the work in execution: its blocks, and those whose last words run (R20). -/
def State.runSlots (s : State) (e : EngineId) : Nat := s.engines[e].buf.length + s.engines[e].leavingSlots s.tick

/-- Block-buffer slots of an engine in use: those and the blocks kept for its other contexts (R158). -/
def State.slotsUsed (s : State) (e : EngineId) : Nat :=
  s.runSlots e + (s.contexts.map fun x => if x.2.owner == e.val then x.2.kept.length else 0).sum

/-- A block of Q_FETCH, still faulted, whose resolved page lets its fetch go on (R165, R166). -/
def State.heldFetch (s : State) (e : EngineId) : Option (FetchItem × BlockHeader × Bytes) :=
  (s.fetched.find? fun x => x.1 == e && x.2.1.held && !s.blockHeld e x.2.1.space x.2.1.address).map (·.2)

/-- The next block of a context's list that is not decoded and not in Q_FETCH; an injected context has one block, its
template (R135). -/
def State.itemAhead (s : State) (e : EngineId) (n : Nat) (c : Context) : Option FetchItem :=
  let i := s.nextEntry e n c
  if c.injected then
    if c.listIndex = 0 && s.inFlight e n c = 0 then
      some { ctx := n, listIndex := 0, address := c.listBase, sequence := 0, lastOfList := true, space := c.space }
    else none
  else if s.listOver c i then none
  else (s.listEntry c i).map fun l =>
    { ctx := n, listIndex := i, address := l.address, sequence := l.sequence, lastOfList := l.listEnd, space := c.space }

/-- The next block of an engine's fetch stream: stolen blocks first (R106), then its context's list, not
beyond the end of a layer. -/
def State.nextFetch (s : State) (e : EngineId) : Option FetchItem :=
  match s.engines[e].stolenQ with
  | x :: _ => some x
  | [] =>
    match s.fetchContext e with
    | none => none
    | some (n, c) =>
      let crosses := ((s.engines[e].buf ++ c.kept).any fun b => b.ctx == n && lastInLayer b.header)
        || s.fetched.any fun x => x.1 == e && x.2.1.ctx == n && lastInLayer x.2.2.1
      -- a context that is not running has the slots that are free (R158)
      let full := s.engines[e].ctx.isNone && decide (4 ≤ s.slotsUsed e + s.fetchLoad e)
      if !c.injected && (crosses || full) then none else s.itemAhead e n c

/-- The use of the 6 shared credits of Q_FETCH (Table 1.3). -/
def State.fetchShared (s : State) : Nat := ((List.finRange 13).map fun e => s.fetchLoad e - 2).sum

/-- Engine e gets a Q_FETCH credit: one of its own 2, or a shared one as the engine with the least buffered
time of those that ask (Table 1.3). -/
def State.fetchCredit (s : State) (e : EngineId) : Bool :=
  decide (s.fetchLoad e < 2)
    || (decide (s.fetchShared < 6)
        && (List.finRange 13).all fun o =>
          o == e || (s.nextFetch o).isNone || decide (s.bufferedTime e ≤ s.bufferedTime o))

/-- Release the last kept block of another context (R158); its slot can be used from the next tick on (R15). -/
def State.freeBuffer (s : State) (e : EngineId) : State :=
  match s.contexts.find? fun x => x.2.owner == e.val && !x.2.kept.isEmpty with
  | some (n, _) => (s.modCtx n fun c => { c with kept := c.kept.dropLast }).freeCredit 2 e.val
  | none => s

/-- Words of an injected template at their place on the bed (R46, R135). -/
def shiftWords (dx dy : Int) (ws : List VWord) : List VWord :=
  ws.map fun
    | .jump st x y => .jump st (x + dx) (y + dy)
    | .mark a b c x y => .mark a b c (x + dx) (y + dy)
    | w => w

/-- A block belongs to the work that the engine has in execution: its running context's, or stolen. -/
def State.inRun (s : State) (e : EngineId) (n : Nat) (stolen : Bool) : Bool :=
  stolen || s.engines[e].ctx.any fun k => k.val == n

/-- A place kept in the buffer for a block of Q_FETCH whose fetch has faulted (R20, R165). -/
def FetchItem.gapBlock (x : FetchItem) : Block :=
  { address := x.address, ctx := x.ctx, sequence := x.sequence, lastOfList := x.lastOfList, stolen := x.stolen
    listIndex := x.listIndex, gap := true }

/-- The place is kept for that block. -/
def Block.keptFor (b : Block) (ctx listIndex : Nat) (stolen : Bool) : Bool :=
  b.gap && b.ctx == ctx && b.listIndex == listIndex && b.stolen == stolen

/-- Faulted blocks that stand before one in the list it comes from and have no place in the buffer yet. -/
def State.gapsBefore (s : State) (e : EngineId) (x : FetchItem) : List FetchItem :=
  ((s.fetched.takeWhile fun y => !(y.1 == e && y.2.1 == x)).filter fun y =>
    y.1 == e && y.2.1.ctx == x.ctx && y.2.1.stolen == x.stolen && y.2.1.held
      && !s.engines[e].buf.any fun b => b.keptFor y.2.1.ctx y.2.1.listIndex y.2.1.stolen).map (·.2.1)

/-- A block takes the place kept for it, or the end of the buffer. -/
def placeBlock (b : Block) : List Block → List Block
  | [] => [b]
  | x :: t => if x.keptFor b.ctx b.listIndex b.stolen then b :: t else x :: placeBlock b t

/-- A decoded block as a remainder for any engine (R31, R186). -/
def wholeRemainder (e : EngineId) (b : Block) : Remainder :=
  { engine := e.val, ctx := b.ctx, anyEngine := true
    block := { b with words := openEnded b.words, stolen := true, measured := true } }

/-- Some engine in service can reach a block (R186, R187). -/
def State.reachable (s : State) (h : BlockHeader) : Bool :=
  (List.finRange 13).any fun e =>
    s.inService e && s.engines[e].st != .fault && ((s.engines[e].routed.map fun p => eligible h p.val).getD false)

/-- Work that no engine in service can reach is coverage lost (R187). -/
def State.loseUnreachable (s : State) : State :=
  let gone := s.remainders.filter fun r => r.anyEngine && !s.reachable r.block.header
  let s := gone.foldl (fun s r => s.loseBlock r.block.space r.block.address) s
  { s with remainders := s.remainders.filter fun r => !(r.anyEngine && !s.reachable r.block.header) }

/-- The empty placeholder of a block that the engine does not run (R52); one of the last block of a layer still ends
the layer. -/
def Block.emptied (b : Block) : Block :=
  { b with
    placeholder := true, measured := true
    words := if lastInLayer b.header && !b.stolen then [if b.lastOfList then .endWord else .layerEnd b.header.layer] else [] }

/-- The engine's laser is in a block's mask (R31). -/
def State.maySee (s : State) (e : EngineId) (h : BlockHeader) : Bool :=
  (s.engines[e].routed.map fun p => eligible h p.val).getD true

/-- A block enters the engine's buffer through Q_BLOCK; one of a context that is not running is kept for it
(R158). A block of the engine's own list whose mask excludes its laser is not run there: any engine that it names may
take it, as work re-queued (R31; DESIGN CHOICE, row 108). -/
def State.pushBlock (s : State) (e : EngineId) (b : Block) : State :=
  let away := !b.stolen && !b.placeholder && !s.maySee e b.header
  let s := if away then ({ s with remainders := s.remainders ++ [wholeRemainder e b] } : State).loseUnreachable else s
  let b := if away then b.emptied else b
  if s.inRun e b.ctx b.stolen then
    let parked := s.eff e = .parked && s.engines[e].buf.isEmpty && b.stolen
    let s := (s.modEngine e fun g => { g with buf := placeBlock b g.buf }).passEmpty e 4
    if parked && !s.engines[e].buf.isEmpty then
      -- a PARKED thief runs the stolen block at the head of its buffer (R106), with its own label (R34)
      (s.setEff e .running 0).modEngine e fun g =>
        ({ g with wordOff := 0, ppOffset := 0, par := { g.par with partId := 0, featureTag := 0 } } : Engine).runsOn false 0
    else s
  else s.modCtx b.ctx fun c => { c with kept := c.kept ++ [b] }

/-- A fetched block is the next of its list on the engine and has a slot there; one that is not, since its
context has moved on or its slots were released, is dropped and fetched again when it is due. -/
def State.blockWanted (s : State) (e : EngineId) (x : FetchItem) : Bool :=
  x.stolen
    || match assocGet x.ctx s.contexts with
      | none => false
      | some c =>
        c.owner == e.val
          && (x.listIndex == c.entryAt (s.decoded e x.ctx c + (s.gapsBefore e x).length
                + (s.engines[e].buf.filter fun b => b.gap && b.ctx == x.ctx && !b.stolen && decide (b.listIndex < x.listIndex)).length)
              || s.engines[e].buf.any fun b => b.keptFor x.ctx x.listIndex false)
          && (s.inRun e x.ctx false || decide (s.slotsUsed e + s.freedOf 2 e.val < 4))

/-- A rejected block becomes an empty placeholder and its work coverage lost (R52). A placeholder of the
last block of a layer still ends the layer. -/
def State.rejectBlock (s : State) (e : EngineId) (x : FetchItem) (h : BlockHeader) (offset code : Nat) : State :=
  let s := s.emit 0x3101 e.val [e.val, x.ctx, x.address, offset, code]
  let s := s.bumpE e 0x3003 1
  let s := ((s.put (engIx 0x3003 e) 2 x.address).put (engIx 0x3003 e) 3 code).put (engIx 0x3003 e) 4 offset
  let s := s.loseBlock x.space x.address
  s.pushBlock e
    ({ address := x.address, header := h, ctx := x.ctx, sequence := x.sequence, lastOfList := x.lastOfList
       space := x.space, listIndex := x.listIndex, stolen := x.stolen } : Block).emptied

/-- An entry of Q_FETCH stands in the order of its list. -/
def insertFetch (z : EngineId × FetchItem × BlockHeader × Bytes) :
    List (EngineId × FetchItem × BlockHeader × Bytes) → List (EngineId × FetchItem × BlockHeader × Bytes)
  | [] => [z]
  | x :: t =>
    if x.1 == z.1 && x.2.1.ctx == z.2.1.ctx && x.2.1.stolen == z.2.1.stolen && decide (z.2.1.listIndex < x.2.1.listIndex) then
      z :: x :: t
    else x :: insertFetch z t

/-- The check that a block in memory fails before it is inflated (R51): 0x02 its header, 0x10 its payload. -/
def State.failCode (s : State) (x : FetchItem) : Nat :=
  match s.physOf x.space x.address false with
  | some p =>
    let hb := memReadN s.mem p 32
    if s.poisonedRange p 32 || (parseHeader hb).headerCrc ≠ crc32c (hb.take 0x1C) then 0x02 else 0x10
  | none => 0x02

/-- The next retries of R51 for a block that failed with a code: fetched again, then decrypted again and fetched, then
rejected. -/
def State.retryBlock (s : State) (e : EngineId) (x : FetchItem) (h : BlockHeader) (code : Nat) : Nat → State
  | 0 => s
  | f + 1 =>
    if 2 ≤ x.attempt then s.rejectBlock e x h 0 code
    else
      let s := s.emit 0x3103 e.val [e.val, x.address, x.attempt + 1, code]
      let s := if x.attempt = 1 then s.redecrypt x.space x.address else s
      let y := { x with attempt := x.attempt + 1 }
      match s.readBlock x.space x.address with
      | (s, .ok b) => { s with fetched := insertFetch (e, y, parseHeader (b.take 32), b.drop 32) s.fetched }
      | (s, .fault va lvl cause) =>
        let s := s.faultOnce .fetch e.val x.space va false lvl cause 0
        { s with fetched := insertFetch (e, { y with held := true }, h, []) s.fetched }
      | (s, .bad) => s.retryBlock e y h (s.failCode x) f

/-- Take the block off the stream that it came from. -/
def State.takeFetch (s : State) (e : EngineId) (x : FetchItem) : State :=
  if x.stolen then s.modEngine e fun g => { g with stolenQ := g.stolenQ.drop 1 } else s

/-- Bytes of a transfer complete when it stops at an address: whole chunks of 4 KiB (R168). -/
def doneAt (start va : Nat) : Nat := (va - start) / 4096 * 4096

/-- A fault of the fetch unit on a block (R165): recorded once while it is pending. The block of the work in execution
keeps its credit and its turn, and later ones are fetched meanwhile; a context that is not on an engine is BLOCKED
(Table 7.4). -/
def State.fetchFault (s : State) (e : EngineId) (x : FetchItem) (va lvl cause : Nat) : State :=
  let s := s.faultOnce .fetch e.val x.space va false lvl cause (doneAt x.address va)
  if x.held then s
  else if s.inRun e x.ctx x.stolen then
    let s := s.takeFetch e x
    { s with fetched := s.fetched ++ [(e, { x with held := true }, {}, [])] }
  else
    s.modCtx x.ctx fun c =>
      if c.st == .ready || c.st == .preempted then { c with before := c.st, st := .blocked, blockedCause := 1 } else c

/-- The fetch unit reads block x: whole it enters Q_FETCH, in its place where it has one (R14, R51, R165). -/
def State.fetchBlock (s : State) (e : EngineId) (x : FetchItem) : State :=
  let y := { x with held := false, waited := false }
  match s.readBlock x.space x.address with
  | (s, .fault va lvl cause) => s.fetchFault e x va lvl cause
  | (s, .bad) =>
    let h := ((s.headerBytes x.space x.address).map parseHeader).getD {}
    let s := if x.held then { s with fetched := s.fetched.filter fun z => !(z.1 == e && z.2.1 == x) } else s.takeFetch e x
    s.retryBlock e y h (s.failCode x) 3
  | (s, .ok b) =>
    let z := (e, y, parseHeader (b.take 32), b.drop 32)
    if x.held then { s with fetched := s.fetched.map fun w => if w.1 == e && w.2.1 == x then z else w }
    else
      let s := s.takeFetch e x
      { s with fetched := s.fetched ++ [z] }

/-- The list entry that the engine's stream needs next lies in a page that is not mapped: its space and address. -/
def State.listFault (s : State) (e : EngineId) : Option (Nat × Nat) :=
  match s.fetchContext e with
  | none => none
  | some (n, c) =>
    let i := s.nextEntry e n c
    if c.injected then none
    else if 0 < i && (s.listEntry c (i - 1)).isNone then some (c.space, c.listBase + 16 * (i - 1))
    else if s.listOver c i || (s.listEntry c i).isSome then none
    else some (c.space, c.listBase + 16 * i)

/-- A list entry cannot be read: the fetch unit faults on it (R163, R165). -/
def State.faultOnList (s : State) (e : EngineId) : State :=
  match s.listFault e with
  | none => s
  | some (space, va) =>
    if s.faultHeld .fetch e.val space va then s
    else
      match s.translate .fetch space va false with
      | (s, .ok _) => s
      | (s, .error (lvl, cause)) => s.raiseFault .fetch e.val space va false lvl cause 0

/-- The wait of an entry for a Q_FETCH credit is counted once (Table 1.7). -/
def State.waitFetch (s : State) (e : EngineId) (x : FetchItem) : State :=
  if s.engines[e].fetchWaited = some (x.ctx, x.listIndex) then s
  else (s.waited 1).modEngine e fun g => { g with fetchWaited := some (x.ctx, x.listIndex) }

/-- BLOCK_FETCH: the fetch unit goes on with a faulted block of engine e whose page is mapped again, or reads the next
block of its stream into Q_FETCH (R18, R51, R165). -/
def execBlockFetch (e : EngineId) (s : State) : Out :=
  if !s.inService e then .next s
  else
    match s.heldFetch e with
    | some (x, _, _) => .next (s.fetchBlock e x)
    | none =>
      match s.nextFetch e with
      | none => .next (s.faultOnList e)
      | some x => if s.fetchCredit e then .next (s.fetchBlock e x) else .next (s.waitFetch e x)

/-- An inflater's verdicts (R320): after 3 blocks in a row that failed on it and decoded on the other, it
leaves service; with both out, SAFE. -/
def State.inflaterVerdict (s : State) (i : Fin 2) (good : Bool) (retry : Bool) : State :=
  let o : Fin 2 := if i = 0 then 1 else 0
  let s := if good then s.modInflater i fun x => { x with failRun := if x.pendingVerdict then x.failRun else 0 } else s
  if retry && s.inflaters[o].pendingVerdict then
    let s := s.modInflater o fun x =>
      { x with pendingVerdict := false, failRun := if good then x.failRun + 1 else 0 }
    if s.inflaters[o].failRun ≥ 3 && s.inflaters[o].inService then
      let s := s.modInflater o fun x => { x with inService := false }
      let s := s.emit 0xD103 o.val [o.val, s.inflaters[o].lastFailed]
      if s.inflaters[i].inService then s.noteFault 2 else s.enterSafe 0x0605 .inflaters
    else s
  else s

/-- The first block in Q_FETCH that may be decoded now; no block overtakes an earlier one of its own list, but for one
whose fetch has faulted (R20). -/
def pickFetched (ok : EngineId × FetchItem × BlockHeader × Bytes → Bool) :
    List (EngineId × Nat × Bool) → List (EngineId × FetchItem × BlockHeader × Bytes) →
      Option (EngineId × FetchItem × BlockHeader × Bytes)
  | _, [] => none
  | seen, x :: t =>
    let k := (x.1, x.2.1.ctx, x.2.1.stolen)
    if x.2.1.held || seen.contains k then pickFetched ok seen t
    else if ok x then some x else pickFetched ok (k :: seen) t

/-- The block has its place in the buffer of its work in execution, or slots are there for it and for the faulted blocks
before it, once kept blocks have gone (R158). -/
def State.hasRoom (s : State) (x : EngineId × FetchItem × BlockHeader × Bytes) : Bool :=
  !s.inRun x.1 x.2.1.ctx x.2.1.stolen
    || (s.engines[x.1].buf.any fun b => b.keptFor x.2.1.ctx x.2.1.listIndex x.2.1.stolen)
    || decide (s.runSlots x.1 + (s.gapsBefore x.1 x.2.1).length < 4)

/-- Inflater i may decode a block of Q_FETCH: its engine has room, and a block that failed once goes to the other
inflater (R51, R320). -/
def State.mayInflate (s : State) (i : Fin 2) (x : EngineId × FetchItem × BlockHeader × Bytes) : Bool :=
  let o : Fin 2 := if i = 0 then 1 else 0
  s.hasRoom x && !(x.2.1.attempt == 1 && s.inflaters[i].pendingVerdict && s.inflaters[o].inService)

/-- Blocks of Q_FETCH that wait for a Q_BLOCK credit are counted, each once (Table 1.7). -/
def State.waitInflate (s : State) : State :=
  let new := fun (x : EngineId × FetchItem × BlockHeader × Bytes) => !x.2.1.held && !x.2.1.waited && !s.hasRoom x
  if s.fetched.any new then
    { (s.count 0xF010 2 (s.fetched.filter new).length) with
      fetched := s.fetched.map fun x => if new x then (x.1, { x.2.1 with waited := true }, x.2.2) else x }
  else s

/-- The block-buffer slots that a block needs besides the place kept for it. -/
def State.slotsNeeded (s : State) (e : EngineId) (x : FetchItem) : Nat :=
  if s.engines[e].buf.any fun b => b.keptFor x.ctx x.listIndex x.stolen then 0 else (s.gapsBefore e x).length + 1

/-- BLOCK_INFLATE: inflater i decodes the next block of Q_FETCH for an engine with a free slot, and the word
checker admits or rejects it (R50, R51, R52, R319, R320). An item with attempt 8 stands for a block whose fetch
fault was unresolvable, check code 0x08 (Table 7.8); after an uncorrectable error of Q_FETCH's SRAM the block is fetched
again, from step 1 of R51 on. -/
def execBlockInflate (i : Inflation) (s : State) : Out :=
  if !s.inflaters[i.inflater].inService then .next s
  else
    match pickFetched (s.mayInflate i.inflater) [] s.fetched with
    | none => .next s.waitInflate
    | some (e, x, h, payload) =>
      if !s.blockWanted e x then .next (({ s with fetched := s.fetched.erase (e, x, h, payload) } : State).freeCredit 1 e.val)
      else if 4 < s.slotsUsed e + s.slotsNeeded e x && s.inRun e x.ctx x.stolen then .next (s.freeBuffer e)
      else if 4 < s.slotsUsed e + s.freedOf 2 e.val + s.slotsNeeded e x && s.inRun e x.ctx x.stolen then .next s
      else
      let gaps := if s.slotsNeeded e x = 0 then [] else (s.gapsBefore e x).map FetchItem.gapBlock
      let s := ({ s with fetched := s.fetched.erase (e, x, h, payload) } : State).freeCredit 1 e.val
      let s := if s.inRun e x.ctx x.stolen then s.modEngine e fun g => { g with buf := g.buf ++ gaps } else s
      if x.attempt = 8 then .next (s.rejectBlock e x h 0 0x08)
      else if i.sramError then .next (s.retryBlock e { x with attempt := 0 } h 0x10 3)
      else match s.checkPayload h x.lastOfList payload with
      | .ok ws =>
        let s := s.bump (0xD010 + i.inflater.val) 1
        let s := s.inflaterVerdict i.inflater true (x.attempt == 1)
        let c := (assocGet x.ctx s.contexts).getD {}
        .next (s.pushBlock e
          { address := x.address, header := h, ctx := x.ctx, sequence := x.sequence, lastOfList := x.lastOfList
            space := x.space, listIndex := x.listIndex, stolen := x.stolen
            words := if isTemplate h then shiftWords c.injectX c.injectY ws else if x.stolen then openEnded ws else ws })
      | .error (off, code) =>
        let s := s.bump (0xD010 + i.inflater.val) (if code = 0x10 ∨ code = 0x11 then 2 else 1)
        if code = 0x10 then
          let s := s.modInflater i.inflater fun y => { y with lastFailed := x.address }
          let s := s.inflaterVerdict i.inflater false (x.attempt == 1)
          let s := if x.attempt = 0 then s.modInflater i.inflater fun y => { y with pendingVerdict := true } else s
          .next (s.retryBlock e x h 0x10 3)
        else .next (s.rejectBlock e x h off code)

end Sys2Proof.Machine
end

