-- ==== Sys2Proof/Machine/Layer.lean ====
section
/-!
DEFINITION. The end of a layer's work on an engine (R45, R86, R87, R107, R109): LAYER_END, END, time-outs of
waits and of lasers, and work declared coverage lost.
-/
namespace Sys2Proof.Machine

/-- The engine is out of the layer; one that waits at layer start for its laser is not (R86). In a takeover CE12
has the work of the failed engine before it enters STANDIN (R174). -/
def State.outOfLayer (s : State) (e : EngineId) : Bool :=
  match s.workState e with
  | .running | .yielding | .stalled | .parked => false
  | .armed => s.engines[e].readyTimer.isNone
  | _ => true

/-- No engine has work left in the layer (R87); what was re-queued and no engine took is then coverage lost
(R187). -/
def State.layerOver (s : State) : Bool :=
  (List.finRange 13).all (fun e => s.outOfLayer e) && s.remainders.all fun r => r.anyEngine

/-- An injected context of the engine that can run now (R135). -/
def State.injectedWaiting (s : State) (e : EngineId) : Option (Nat × Context) :=
  s.contexts.find? fun x => x.2.injected && x.2.owner == e.val && (x.2.st == .ready || x.2.st == .preempted)

/-- An injected context of the engine is not DONE and cannot run now; LAYER_END is held for it (R135). -/
def State.injectedBlocked (s : State) (e : EngineId) : Bool :=
  s.contexts.any fun x => x.2.injected && x.2.owner == e.val && x.2.st == .blocked

/-- While a layer-ending word is held, the decoded stolen block goes first; the rest of the block behind it is
the held word alone (R107). -/
def holdFor (buf : List Block) (off : Nat) : List Block :=
  match buf with
  | [] => []
  | b :: t =>
    match t.find? fun x => x.stolen with
    | none => buf
    | some x => x :: { b with words := b.words.drop off, measured := true } :: t.erase x

/-- Engine e, holding a layer-ending word, takes it (R107, R186). -/
def State.takeRequeued (s : State) (e : EngineId) (r : Remainder) : State :=
  let s := (s.measureBlock e).modEngine e fun g =>
    { g with
      buf := match g.buf with | [] => [] | b :: t => { b with words := b.words.drop g.wordOff, measured := true } :: t
      firstJumpDone := false, execStart := g.planEnd, waitUpdates := 0, ranBefore := 0 }
  s.assign r e

/-- The held layer-ending word runs stolen blocks and injected contexts first, and makes a steal attempt;
none when nothing is left (R107, R135). -/
def State.holdLayerEnd (s : State) (e : EngineId) : Option State :=
  if (s.engines[e].buf.drop 1).any fun b => b.stolen then
    some ((s.measureBlock e).modEngine e fun g =>
      { g with buf := holdFor g.buf g.wordOff, wordOff := 0, ppOffset := 0, firstJumpDone := false,
               execStart := g.planEnd, waitUpdates := 0, ranBefore := 0 })
  else if s.stolenWaiting e then some s
  else if (s.requeuedFor e).isSome then (s.requeuedFor e).map fun r => s.takeRequeued e r
  else
    match s.injectedWaiting e with
    | some (n, c) =>
      let s := s.modEngine e fun g =>
        { g with stopX := g.posX, stopY := g.posY, stopFraction := 0, stopDwell := 0, ppOffset := g.wordOff }
      let s := s.saveContext e (saveSlotFor s.contexts e) fun x => x
      some (s.startContext e n c)
    | none =>
      if s.injectedBlocked e then some s
      else
        let (t, got) := s.steal e
        if got then some t else none

/-- The layer-ending word is reached at its position instant (Table 3.3). -/
def State.atInstant (s : State) (e : EngineId) : Bool := decide (s.engines[e].planEnd ≤ upd * s.update)

/-- The block under execution belongs to a context that another engine runs (R102, R186). -/
def State.borrowedBlock (s : State) (e : EngineId) : Bool := (s.engines[e].buf.head?.map (·.stolen)).getD false

/-- A layer-ending word of a borrowed block ends the layer's work of the block's own context. -/
def State.endBorrowed (s : State) (e : EngineId) (st : CtxState) : State :=
  let c := (s.engines[e].buf.head?.map (·.ctx)).getD 512
  (s.blockDone e).modCtx c fun x => { x with st := st, readyAt := s.tick }

/-- LAYER_END: the list's work in the layer ends; the context waits for the next layer (R45, R107). -/
def execLayerEnd (e : EngineId) (s : State) : Out :=
  .next <| s.onWord e fun
    | .layerEnd _ =>
      let s := s.closeSegment e
      if !s.atInstant e then some s
      else if s.borrowedBlock e then some (s.endBorrowed e .loaded)
      else
        match s.holdLayerEnd e with
        | some t => some t
        | none =>
          let c := (s.engines[e].ctx.map (·.val)).getD 512
          let s := s.blockDone e
          let s := s.modCtx c fun x => { x with st := .loaded, wordOffset := 0, readyAt := s.tick, kept := s.engines[e].buf }
          some ((s.modEngine e fun g => { g with ctx := none, buf := [] }).nextContext e)
    | _ => none

/-- END: completes the layer as LAYER_END does and moves the context to DONE; in a template it ends the
injected context (R45). -/
def execEndWord (e : EngineId) (s : State) : Out :=
  .next <| s.onWord e fun
    | .endWord =>
      let s := s.closeSegment e
      let template := (s.engines[e].buf.head?.map fun b => isTemplate b.header).getD false
      if !s.atInstant e then some s
      else if s.borrowedBlock e then some (s.endBorrowed e .done)
      else
        match (if template then none else s.holdLayerEnd e) with
        | some t => some t
        | none =>
          let c := (s.engines[e].ctx.map (·.val)).getD 512
          let s := s.blockDone e
          let s := s.modCtx c fun x => { x with st := .done, kept := [] }
          some ((s.modEngine e fun g => { g with ctx := none, buf := [] }).nextContext e)
    | _ => none

/-- TOKEN_TIMEOUT: a token or seam wait reaches TokenTimeout; the engine parks and its remainder is held
(R109). The awaited change in the same tick wins (R27). -/
def execTokenTimeout (e : EngineId) (s : State) : Out :=
  let lim := msTicks (s.armNat 0x2803 3)
  let parkOn := fun (t n : Nat) (cnt : Nat) (tok sm : Option (Nat × Nat)) =>
    let s := (s.bumpE e 0x3005 6).emit 0x2804 e.val [e.val, t, cnt, n]
    (s.dropClaims e).park e 0x030A none tok sm
  match s.engines[e].wait with
  | .token t n since =>
    if h : t < 64 then
      if s.tick < since + lim then .next s
      else if n ≤ s.tokens[t].count then
        .next (((s.modEngine e fun g => { g with wait := .none }).setEff e .running 0).advance e)
      else .next (parkOn t n s.tokens[t].count (some (t, n)) none)
    else .next s
  | .seam t id since =>
    if h : t < 64 then
      if s.tick < since + lim then .next s
      else if s.tokens[t].mailbox.any fun m => m.1 == id then
        .next ((s.engines[e].seam.map (s.endSeamWait e)).getD s)
      else .next (parkOn t id s.tokens[t].count none (some (t, id)))
    else .next s
  | _ => .next s

/-- Work of a context in the layer is over with its block lost: it goes on at its list's next entry. -/
def Context.passBlock (c : Context) (last : Bool) : Context :=
  { c with listIndex := c.nextIndex, wordOffset := 0, inUnit := false, kept := [], area := none, saveSlot := 255,
           blockedCause := 0, st := if last then .loaded else .preempted }

/-- Remainders held for a token or a seam are coverage lost (R109). -/
def State.loseHeld (s : State) : State :=
  let held := s.remainders.filter fun r => r.token.isSome || r.seamWait.isSome
  let s := held.foldl (fun s r =>
    let s := s.loseBlock r.block.space r.block.address
    -- a stolen block has left its owner's list (R106)
    if r.block.stolen then s else s.modCtx r.ctx fun c => c.passBlock (lastInLayer r.block.header)) s
  let ids := held.filterMap (·.claimId)
  { s with remainders := s.remainders.filter fun r => !(r.token.isSome || r.seamWait.isSome)
           claims := s.claims.filter fun c => !ids.contains c.id }

/-- HELD_REMAINDERS_LOST: no engine can make progress, so held remainders are coverage lost and parked engines
with no other work enter ARMED (R109). -/
def execHeldRemaindersLost (s : State) : Out :=
  let busy := (List.finRange 13).any fun e =>
    s.engines[e].st == .standin || s.eff e == .running || s.eff e == .yielding || s.eff e == .stalled
  let re := s.remainders.any fun r => r.token.isNone && r.seamWait.isNone
  let held := s.remainders.any fun r => r.token.isSome || r.seamWait.isSome
  if s.modState != .building || busy || re || !held then .next s
  else
    .next (State.foldFin 13 s.loseHeld fun e s =>
      if s.eff e = .parked then
        let t := s.selectIdle e
        if t.eff e = .parked then t.leaveLayer e 0x0305 else t
      else s)

/-- READY_TIMEOUT: an engine that waits at layer start for its laser enters STALLED (R86). The laser becoming
available in the same tick wins (R27). -/
def execReadyTimeout (e : EngineId) (s : State) : Out :=
  match s.engines[e].readyTimer with
  | some t =>
    if s.eff e != .armed || decide (s.tick < t) || s.laserReady e then .next s
    else
      let (u, ok) := s.select e s.contexts.length
      let u := if ok then u else s
      let u := (u.setEff e .stalled 0x0602).modEngine e fun g =>
        { g with readyTimer := none, stallLaser := true, stopX := g.posX, stopY := g.posY, stopTick := u.tick }
      let p := (s.engines[e].routed.map (·.val)).getD 255
      .next (u.emit 0x4101 p [p, (s.engines[e].routed.map fun l => s.lasers[l].failing.code).getD 0])
  | none => .next s

/-- Every other engine with a routed port has left the layer (R87). -/
def State.lastInLayer (s : State) (e : EngineId) : Bool :=
  (List.finRange 13).all fun o => o == e || s.engines[o].routed.isNone || s.outOfLayer o

/-- The rest of an engine's work in the layer is coverage lost (R87). -/
def State.loseLayerWork (s : State) (e : EngineId) : State :=
  let n := s.layer.number
  let s := (s.engines[e].buf.filter fun b => b.header.layer == n).foldl (fun s b => s.loseBlock b.space b.address) s
  let mine := s.contexts.filter fun x => x.2.owner == e.val && (x.2.st == .running || x.2.st == .ready || x.2.st == .preempted
      || x.2.st == .blocked) && !x.2.injected
  let s := mine.foldl (fun s x =>
    let rest := s.pendingFrom x.2 n 65536 x.2.listIndex
    let s := rest.foldl (fun s r => s.loseBlock x.2.space r.2.1.address) s
    s.modCtx x.1 fun c =>
      { c with listIndex := (rest.getLast?.map fun r => r.1 + 1).getD c.listIndex, wordOffset := 0, inUnit := false, kept := [], area := none,
               saveSlot := 255, spilled := false, blockedCause := 0, st := .loaded }) s
  s.modEngine e fun g => { g with ctx := none, buf := [], wordOff := 0, stopInUnit := false, group := none, seam := none }

/-- LAYER_END_FORCED: the last engine's laser does not come back within ReadyTimeout; its work in the layer is
coverage lost (R87), record 0x4108. -/
def execLayerEndForced (e : EngineId) (s : State) : Out :=
  match s.engines[e].forcedTimer with
  | some t =>
    if s.eff e != .stalled || !s.engines[e].stallLaser || !s.lastInLayer e || decide (s.tick < t) || s.laserReady e then .next s
    else
      let before := s.nat 0x3C10 8
      let g := s.engines[e]
      let p := (g.routed.map (·.val)).getD 255
      let s := ({ s with layer := { s.layer with coverageLost := true } } : State).loseLayerWork e
      let s := s.emit 0x4108 p [p, e.val, bedUnit g.stopX, bedUnit g.stopY, s.nat 0x3C10 8 - before]
      .next (s.leaveLayer e 0x0305)
  | none => .next s

end Sys2Proof.Machine
end

