-- ==== Sys2Proof/Machine/Transform.lean ====
section
/-!
DEFINITION. Bed to head transform (R67 to R70) in exact rational arithmetic, but for the sine and cosine of the
field rotation; and the 160-bit frames of Tables 3.4 and 3.5 with their CRC (R71, R72).
-/
namespace Sys2Proof.Machine

/-- Nearest integer, a tie towards +∞ (R139 gives this rounding; the transform's own tie rule is unstated). -/
def nearest (q : Rat) : Int := (q + 1 / 2).floor

/-- The field placement of a laser in force at ARM (R90, R91). -/
structure Placement where
  xc : Int
  yc : Int
  /-- rotation, 0.001° -/
  rot : Int
  deriving DecidableEq, Repr

/-- Head coordinates in bed units: Rot(−θ) · ((X, Y) − (Xc, Yc)) (R67 step 1). -/
def headXY (pl : Placement) (x y : Rat) : Rat × Rat :=
  let (sn, cs) := sinCos pl.rot
  let s : Rat := sn / (trigOne : Rat)
  let c : Rat := cs / (trigOne : Rat)
  let dx := x - pl.xc
  let dy := y - pl.yc
  (c * dx + s * dy, c * dy - s * dx)

/-- Catmull-Rom weights for m = −1, 0, 1, 2 (R68). -/
def weights (u : Rat) : List Rat :=
  let u2 := u * u
  let u3 := u2 * u
  [(2 * u2 - u3 - u) / 2, (3 * u3 - 5 * u2 + 2) / 2, (4 * u2 - 3 * u3 + u) / 2, (u3 - u2) / 2]

/-- A map node; those not listed are 0. -/
def mapNode (map : List (Nat × Nat × Int × Int × Int)) (i j : Int) : Int × Int × Int :=
  let ci := (clampInt i 0 128).toNat
  let cj := (clampInt j 0 128).toNat
  match map.find? fun n => n.1 == ci && n.2.1 == cj with
  | some (_, _, d) => d
  | none => (0, 0, 0)

/-- Field width in bed units (25 nm) and focus half-range in 0.1 µm. -/
def CalRec.wBed (r : CalRec) : Rat := r.w * 400
def CalRec.f01 (r : CalRec) : Rat := r.f * 100

/-- The interpolated map offset at head coordinates (R68). -/
def mapDelta (r : CalRec) (xh yh : Rat) : Rat × Rat × Rat :=
  let gx := (xh + r.wBed / 2) * 128 / r.wBed
  let gy := (yh + r.wBed / 2) * 128 / r.wBed
  let i0 := gx.floor
  let j0 := gy.floor
  let wu := weights (gx - i0)
  let wv := weights (gy - j0)
  (List.range 4).foldl (fun acc m => (List.range 4).foldl (fun (a : Rat × Rat × Rat) n =>
    let w := wu.getD m 0 * wv.getD n 0
    let d := mapNode r.map (i0 + m - 1) (j0 + n - 1)
    (a.1 + w * d.1, a.2.1 + w * d.2.1, a.2.2 + w * d.2.2)) acc) (0, 0, 0)

/-- Drift (R69): ΔT in K; G in ppb/K, O in nm/K. -/
def driftXY (v dT : Rat) (g o : Int) : Rat := v * (1 + g * dT / 1000000000) + o * dT / 25

/-- Saturate to a signed width; whether it was outside. -/
def saturate (bits : Nat) (v : Int) : Int × Bool :=
  let hi : Int := 2 ^ (bits - 1) - 1
  let lo : Int := -(2 ^ (bits - 1))
  (clampInt v lo hi, decide (v < lo) || decide (hi < v))

/-- The frame values X, Y, Z, and bits of the axes saturated (R70). -/
def transform (r : CalRec) (pl : Placement) (tHead : Rat) (x y : Rat) (focus : Int) : Int × Int × Int × Nat :=
  let (xh, yh) := headXY pl x y
  let (dx, dy, dz) := mapDelta r xh yh
  let dT := (tHead - r.tCal) / 100
  let x2 := driftXY (xh + dx) dT r.gx r.ox
  let y2 := driftXY (yh + dy) dT r.gy r.oy
  let z2 := focus + dz + r.oz * dT / 100
  let fx := saturate 24 (nearest (x2 * 16777216 / r.wBed))
  let fy := saturate 24 (nearest (y2 * 16777216 / r.wBed))
  let fz := saturate 20 (nearest (z2 * 524288 / r.f01))
  (fx.1, fy.1, fz.1, b2n fx.2 + 2 * b2n fy.2 + 4 * b2n fz.2)

/-- Add the CRC of R72 over characters 0–17 of a frame. -/
def withCrc (low : Nat) : Nat := low + crc16 (leBytes 18 low) * 2 ^ 144

/-- The CRC of a frame matches (R72). -/
def crcOk (w : Nat) : Bool := field w 159 144 == crc16 (leBytes 18 w)

/-- A downstream frame (Table 3.4). -/
def downFrame (f : Frame) (gate resync : Bool) (aux : Option (Nat × Nat × Nat)) (seq : Nat) : Nat :=
  let (op, addr, data) := aux.getD (0, 0, 0)
  withCrc (seq % 256 + unsigned 24 f.x * 2 ^ 8 + unsigned 24 f.y * 2 ^ 32 + unsigned 20 f.z * 2 ^ 56
    + b2n resync * 2 ^ 91 + b2n f.jump * 2 ^ 92 + b2n f.seg * 2 ^ 93 + b2n gate * 2 ^ 94 + b2n f.hold * 2 ^ 95
    + data * 2 ^ 96 + addr * 2 ^ 112 + op * 2 ^ 126)

/-- An LPWR frame (Table 3.9). -/
def lpwrWord (gate : Bool) (seq power : Nat) : Nat :=
  let v := b2n gate * 2 ^ 18 + seq % 4 * 2 ^ 16 + power % 65536
  2 ^ 23 + v * 16 + crc4 (msbBits 19 v)

end Sys2Proof.Machine
end

