-- ==== Sys2Proof/Machine/Output.lean ====
section
/-!
DEFINITION. The update grid (R56, R57, R59, R63 to R66, R173, R129, R21): UPDATE sends one frame on each link,
generates the set-point 24 updates ahead with its checkpoint, and posts deposits and look-ahead requests;
POWER_SLOT sends one LPWR frame (R66, R80, R81).
-/
namespace Sys2Proof.Machine

/-- The engine that drives port p. -/
def State.engineOf (s : State) (p : LaserId) : Option EngineId :=
  (List.finRange 13).find? fun e => s.engines[e].routed == some p

/-- The crossbar holds port p between a self-check failure and its new routing (R175). -/
def State.portHeld (s : State) (p : LaserId) : Bool :=
  s.spare.takeoverAt.isSome && s.spare.standinFor.map (·.val) == some p.val

/-- Lasers may emit (Table 1.5). -/
def State.emitting (s : State) : Bool := s.modState == .building || s.modState == .service

/-- The gate of every routed port takes the level of its engine's edges; an unrouted port has its gate and its EMIT_EN
off (R63, R82). -/
def State.applyEdges (s : State) : State :=
  { s with lasers := Vector.ofFn fun (p : Fin 12) =>
      match s.engineOf p with
      | some e => { s.lasers[p] with lgate := s.engines[e].levelAt (8 * s.tick) && !s.portHeld p }
      | none => { s.lasers[p] with lgate := false, emitEn := false } }

/-- Hold the gate low for an interval (R57). -/
def Engine.gateLow (g : Engine) (a b : Int) : Engine :=
  let before := g.edges.filter fun x => decide (x.at8 < a)
  let after := g.edges.filter fun x => decide (b < x.at8)
  let power := ((g.edges.filter fun x => x.rise && decide (x.at8 ≤ b)).getLast?.map (·.power)).getD g.par.power
  let cut := if g.levelAt (a - 1) then [⟨a, false, 0⟩] else []
  let again := if g.levelAt b then [⟨b, true, power⟩] else []
  { g with edges := before ++ cut ++ again ++ after }

/-- Position of the path at a plan time (R58). -/
def Engine.posAt (g : Engine) (t : Nat) : Int × Int :=
  match motionPiece g.plan t, g.plan with
  | some m, _ => motionAt m t
  | none, m :: _ => (m.x0, m.y0)
  | none, [] => (g.posX, g.posY)

/-- The field placement of laser p in force at ARM (R67, R91). -/
def State.placement (s : State) (p : LaserId) : Placement :=
  { xc := s.armInt (0x2810 + p.val) 1, yc := s.armInt (0x2810 + p.val) 2, rot := s.armInt (0x2810 + p.val) 3 }

/-- Updates executed of the block under way at plan time t (Table 8.2). -/
def Engine.execUpdates (g : Engine) (t : Nat) : Nat := (t - g.execStart) / upd - g.waitUpdates

/-- Words of the block a piece belongs to, with its slot in the buffer (R173). -/
def Engine.wordsOf (g : Engine) (blockNo : Nat) : List VWord :=
  if blockNo < g.blockNo then (g.lastBlock.map (·.words)).getD [] else g.words

/-- The piece of the path that a checkpoint stands for: before the last gate fall of a unit, the unit (R177). -/
def Engine.checkPiece (g : Engine) (t : Nat) (gate : Bool) : Option Motion :=
  match motionPiece g.plan t with
  | some m =>
    if m.phase = .markDelay && gate then
      ((g.plan.filter fun x => x.inUnit && decide (x.t0 ≤ m.t0)).getLast?).getD m
    else some m
  | none => none

/-- Checkpoint k (R173, Table 8.2; blocks take the four slots in turn, row 116), written with the set-point for P_k; `gate`
is the gate level at G_k. -/
def Engine.checkpoint (g : Engine) (k : Nat) (gate : Bool) : Checkpoint :=
  let t := upd * k
  let (x, y) := g.posAt t
  let ctx := (g.ctx.map (·.val)).getD 0
  match (if g.planEnd ≤ t && !gate then none else g.checkPiece t gate) with
  | none =>
    -- an engine that has stopped in a unit keeps its stop (R160)
    { update := k, ctx := ctx, wordOffset := g.wordOff, blockNo := g.blockNo, blockSlot := g.blockNo % 4
      execUpdates := g.execUpdates t, phase := if g.wait = .none then .stopped else .wait
      inUnit := g.stopInUnit, markFraction := if g.stopInUnit then g.stopFraction else 0, markX0 := g.stopMarkX0, markY0 := g.stopMarkY0
      breakTo := g.breakTo
      area :=
        { par := g.par, group := g.group, seam := g.seam, dwellRemaining := if g.stopInUnit then g.stopDwell else 0
          posX := if g.stopInUnit then g.stopX else x, posY := if g.stopInUnit then g.stopY else y } }
  | some m =>
    let len := length16 (m.x1 - m.x0) (m.y1 - m.y0) / 65536
    let total := m.seamOffset + len
    let back := m.back != 0
    { update := k, ctx := ctx, wordOffset := m.wordOffset, blockNo := m.blockNo, blockSlot := m.blockNo % 4, phase := m.phase
      phaseRemaining := ceilDiv (m.t0 + m.dur - t) upd
      markFraction := if back then g.stopFraction else m.markFraction t
      jumpStep := if m.phase = .jump then (t - m.t0) / upd else 0
      execUpdates := g.execUpdates t, inUnit := m.inUnit || m.back == 2
      breakTo := m.brk
      markX0 := if back then g.stopMarkX0 else if len = 0 then m.x0 else m.x1 - (m.x1 - m.x0) * total / len
      markY0 := if back then g.stopMarkY0 else if len = 0 then m.y0 else m.y1 - (m.y1 - m.y0) * total / len
      area :=
        { par := replayParams (g.wordsOf m.blockNo) m.wordOffset, group := g.group, seam := g.seam
          dwellRemaining := if m.phase = .dwellOn then ((m.t0 + m.dur - t) * 320 + upd - 1) / upd else 0
          posX := if back then g.stopX else x, posY := if back then g.stopY else y } }

/-- The frame of an engine for P_k (R67 to R71), and the axes saturated (R70). -/
def State.frameFor (s : State) (e : EngineId) (p : LaserId) (k : Nat) : Frame × Nat :=
  let g := s.engines[e]
  let t := upd * k
  let (x, y) := g.posAt t
  let m := if g.planEnd ≤ t && !g.inSegment then none else motionPiece g.plan t
  let foc := (m.map (·.focus)).getD g.par.focus
  let l := s.lasers[p]
  let (fx, fy, fz, bits) := match s.records[p.val]'(by have := p.isLt; omega) with
    | some r => transform r (s.placement p) ((l.tHeadNum : Rat) / l.tHeadDen) ((x : Rat) / 65536) ((y : Rat) / 65536) foc
    | none => (0, 0, 0, 0)
  ({ k := k, bedX := x, bedY := y, x := fx, y := fy, z := fz
     seg := (m.map (·.seg)).getD false, jump := m.any fun m => m.phase == .jump
     hold := !(g.everSet || !g.plan.isEmpty) }, bits)

/-- Largest difference between the main path and the duplicate path at a set-point: on a healthy engine 0 to 4 frame
LSBs, which the spec does not fix further (R171; a free value). -/
def State.duplicate (s : State) : Nat × State :=
  let r := s.takeFree
  (r.1 % 5, r.2)

/-- The duplicate path compares the set-point (R171, R173): its deviation, and whether the checkpoint is valid. -/
def State.compare (s : State) (e : EngineId) : State × Bool :=
  let (d, s) := s.duplicate
  let s := s.modEngine e fun g => { g with dupDeviation := max g.dupDeviation d }
  if d ≤ s.nat 0x3C10 6 then (s, true) else (s.modEngine e fun g => { g with dupBad := true }, false)

/-- The set-point for P_k: frame, checkpoint, the duplicate path's comparison, and the clamp of R70. -/
def State.generate (s : State) (e : EngineId) (p : LaserId) (k : Nat) : State :=
  let g := s.engines[e]
  let (f, bits) := s.frameFor e p k
  let (s, valid) := s.compare e
  let s := s.modEngine e fun g =>
    { g with
      frames := (g.frames.filter fun x => x.k != k) ++ [f]
      genFrom := if g.genUpdate < s.update then k else g.genFrom
      genUpdate := max g.genUpdate k, everSet := g.everSet || !g.plan.isEmpty
      checkpoints := ({ g.checkpoint k (g.levelAt (320 * (k : Int) + s.alignOf p)) with valid := valid }
        :: g.checkpoints.filter fun c => c.update != k).take 32 }
  -- an engine that stands repeats its last set-point, whose values are saturated already (R59, Table 3.1)
  if bits = 0 || decide (g.planEnd < upd * k) then s
  else
    (s.count (engIx 0x3004 e) 3 ((List.range 3).filter fun i => bitOf bits i).length).emit 0x3202 e.val
      [e.val, p.val, bedUnit f.bedX, bedUnit f.bedY, bits]

/-- Q_POS as frame k is sent: the frames of the next 8 updates; those generated further ahead are still in the stages before
it (R18, R57; row 110). -/
def Engine.posQ (g : Engine) (k : Nat) : List Frame := g.frames.filter fun f => decide (k ≤ f.k) && decide (f.k < k + 8)

/-- The frame that link p sends next, for update k (R57, R78): the generated one; the last set-point where the
engine generated none; a hold frame where one is missing, where the link is not routed, and outside BUILDING and
SERVICE. -/
def State.sendFrame (s : State) (p : LaserId) (k : Nat) : State :=
  let l := s.lasers[p]
  if l.link = .off ∨ l.link = .idle then s
  else
    let last : Frame := { k := k, bedX := l.frameX, bedY := l.frameY, hold := true
                          x := signed 24 (field l.frame 31 8), y := signed 24 (field l.frame 55 32)
                          z := signed 20 (field l.frame 75 56) }
    let send := fun (s : State) (f : Frame) (gate : Bool) =>
      s.modLaser p fun l =>
        { l with
          frame := downFrame f gate l.resync l.auxOut (l.txSeq + 1), txSeq := (l.txSeq + 1) % 256
          frameX := f.bedX, frameY := f.bedY, auxOut := none, resync := l.resync && f.hold }
    match (if s.emitting && l.link = .up && !s.portHeld p then s.engineOf p else none) with
    | none => send s last false
    | some e =>
      let g := s.engines[e]
      let gk := 320 * (k : Int) + s.alignOf p
      match (g.posQ k).find? fun f => f.k == k with
      | some f => (send s f (g.levelAt gk && !f.hold)).modEngine e fun g => { g with missFrames := 0 }
      | none =>
        if g.genFrom ≤ k ∧ k ≤ g.genUpdate then
          ((send s last false).modEngine e fun g => { g.gateLow (gk - 320) gk with missFrames := g.missFrames + 1 }).bumpE e 0x3004 4
        -- an engine that has stopped repeats its stop point (R59, R162)
        else if g.everSet then send s { (s.frameFor e p k).1 with hold := false } false
        else send s { last with hold := true } false

/-- Set-point of the last frame sent (0x3000.04–05). -/
def State.noteSetpoint (s : State) (p : LaserId) : State :=
  match s.engineOf p with
  | some e => s.modEngine e fun g => { g with setX := s.lasers[p].frameX, setY := s.lasers[p].frameY }
  | none => s

/-- Power sent in the slot that starts at an instant (R123). -/
def Engine.slotPowerAt (g : Engine) (at8 : Int) : Nat :=
  match g.slotPower.find? fun x => x.1 == at8 with
  | some x => x.2
  | none => 0

/-- Energy of update k (R123): the sum over its two slots of POWER × gate-on eighth-ticks, times FullScalePower;
an eighth-tick is 1.5625 ns, and full power is 65,535. -/
def State.energyOf (s : State) (e : EngineId) (p : LaserId) (k : Int) : Nat :=
  let g := s.engines[e]
  let g0 := 320 * (k - 1) + s.alignOf p
  let slot := fun (a : Int) => (g.slotPowerAt a : Int) * g.onTime a (a + 160)
  ((slot g0 + slot (g0 + 160)) * s.armNat (portIx 0x4002 p) 1).toNat

/-- The ledger cell of a bed position in 1/65,536 unit (R120), with the sizes in force at ARM. -/
def State.cellOf (s : State) (x y : Int) : Int × Int :=
  let c := (s.armNat 0x5200 1 : Int) * 40 * 65536
  let i := (x + s.bedHalf.1 * 65536) / c
  let j := (y + s.bedHalf.2 * 65536) / c
  (min i (s.ledger.cols - 1), min j (s.ledger.rows - 1))

/-- Post the deposit of the last update that is complete, G_k (R123). -/
def State.postDeposit (s : State) (e : EngineId) (p : LaserId) : State :=
  let ga := s.alignOf p
  let k := (8 * (s.tick : Int) - ga) / 320
  let g := s.engines[e]
  if k ≤ g.lastDeposit then s
  else
    let s := s.modEngine e fun g => { g with lastDeposit := k }
    let g0 := 320 * (k - 1) + ga
    if g.onTime g0 (g0 + 320) ≤ 0 || s.armNat 0x5200 6 = 0 then s
    else
      let (x, y) := g.posAt ((k - 1).toNat * upd + upd / 2)
      let (i, j) := s.cellOf x y
      let s := if 256 ≤ g.ledgerQ.length + s.freedOf 7 e.val then s.waited 7 else s
      s.modEngine e fun g =>
        { g with ledgerQ := g.ledgerQ ++ [{ at8 := g0 + 320, cellI := i, cellJ := j, energy := s.energyOf e p k }] }

/-- Words of the block under execution in the order in which they come: the rest of a group's member, the members not yet
executed from the next one on, wrapping, and what follows the group (R42, R103). -/
def Engine.path (g : Engine) : List VWord :=
  match g.group with
  | none => g.rest
  | some gr =>
    if g.wordOff < gr.members.headD 0 || decide (gr.endOffset ≤ g.wordOff) then g.rest
    else
      let n := gr.members.length
      let stop := fun (i : Nat) => gr.members.getD (i + 1) gr.endOffset
      let slice := fun (a b : Nat) => (g.words.drop a).take (b - a)
      let next := ((List.range n).map fun i => (gr.current + 1 + i) % n).filter fun i => i != gr.current && !gr.done.contains i
      slice g.wordOff (stop gr.current) ++ next.flatMap (fun i => slice (gr.members.getD i 0) (stop i)) ++ g.words.drop gr.endOffset

/-- The path along the decoded words up to plan time t, with no wait (R129). -/
def Engine.project (t : Nat) : Engine → List VWord → Engine
  | g, [] => g.planClose
  | g, w :: ws =>
    if t < g.planEnd then g
    else
      let g := match w with
        | .jump settle x y =>
          (g.planClose).planJump (x * 65536) (y * 65536) (if settle then some g.par.settle else none)
        | .mark nc _ mask x y =>
          let g := if g.inSegment then g else { g with inSegment := true, segStart := g.startU / upd, segDirX := 0, segDirY := 0 }
          g.planMark nc false mask x y 0 none 0
        | .dwell true d =>
          if g.inSegment then g.plan1 (g.piece .dwellOn g.planEnd (dwellTime d))
          else g.plan1 (g.piece .dwellOn g.startU (upd * ceilDiv (dwellTime d) upd))
        | .dwell false d => (g.planClose).plan1 (g.piece .dwellOff g.planClose.startU (upd * ceilDiv (dwellTime d) upd))
        | .group .. | .layerEnd _ | .endWord | .token .. | .seam .. => g.planClose
        | w => { g with par := applyParam g.par w }
      g.project t ws

/-- An engine that takes up a stopped unit or goes back to a position, with its resume jump planned, and the words that
come from there (R160). -/
def Engine.resumed (g : Engine) : Engine × List VWord :=
  let back := fun (_ : Unit) =>
    let r := g.restart
    let h := g.backJump r.1 r.2.1
    { h with stopInUnit := false, inSegment := true, segStart := h.startU / upd, segDirX := 0, segDirY := 0 }
  match g.breakTo, g.path with
  | some b, ws => (back (), .mark true b.seam b.mask (b.x / 65536) (b.y / 65536) :: ws)
  | none, .mark nc sm mask x y :: t => if g.stopInUnit then (back (), .mark true sm mask x y :: t) else (g.goBack, .mark nc sm mask x y :: t)
  | none, .dwell true d :: t => (g.goBack, .dwell true (if g.stopInUnit then g.stopDwell else d) :: t)
  | none, .dwell false d :: t => (g.goBack, .dwell false d :: t)
  | none, ws => (g, ws)

/-- The path position at plan time t, if the decoded work reaches so far (R129). -/
def Engine.ahead (g : Engine) (t : Nat) : Option (Int × Int) :=
  let h := g.resumed.1.project t (g.resumed.2 ++ (g.buf.drop 1).flatMap (·.words))
  if t ≤ h.planEnd then some (h.posAt t) else none

/-- Look-ahead request on an even update (R129). -/
def State.postLook (s : State) (e : EngineId) (k : Nat) : State :=
  if k % 2 ≠ 0 || s.eff e != .running || s.armNat 0x5200 6 = 0 || (e == 12 && decide (k + 500 ≤ s.spare.aheadTo)) then s
  else
    match s.engines[e].ahead (upd * (k + 500)) with
    | none => s
    | some (x, y) =>
      let (i, j) := s.cellOf x y
      s.modEngine e fun g =>
        { g with lookReqs := g.lookReqs ++ [{ update := k + 500, posted := s.tick, cellI := i, cellJ := j }] }

/-- Stated execution time of an engine's work in the layer that its buffered time does not count (R20, R21): what its
contexts have still to fetch, blocks in Q_FETCH or behind a gap, blocks kept for other contexts, stolen entries, and
remainders re-queued for it. -/
def State.undecoded (s : State) (e : EngineId) : Nat :=
  let g := s.engines[e]
  let head := fun (x : FetchItem) =>
    ((s.headerBytes x.space x.address).map fun b => (parseHeader b).execTime).getD 0
  let mine := s.contexts.filter fun x =>
    x.2.owner == e.val && (x.2.st == .running || x.2.st == .ready || x.2.st == .preempted || x.2.st == .blocked)
  (mine.map fun x =>
      statedTime x.2.kept + ((s.pendingFrom x.2 s.layer.number 65536 (s.nextEntry e x.1 x.2)).map fun y => y.2.2.execTime).sum).sum
    + statedTime (g.buf.drop g.ready.length)
    + (((s.fetched.filter fun x => x.1 == e).map fun x => head x.2.1).sum + (g.stolenQ.map head).sum)
    + ((s.remainders.filter fun r => r.engine == e.val && !r.anyEngine).map fun r => r.block.header.execTime - r.ran).sum

/-- A fault that prevents refill is being resolved (R21). -/
def State.refillFault (s : State) (e : EngineId) : Bool :=
  (s.faults ++ s.faultWait).any fun f => f.master == 1 && f.inst == e.val

/-- Buffered time against the obligation of R21 and its lowest value (0x3002.02). It is looked at in each UPDATE of an engine
in RUNNING or YIELDING: the spec does not say when BufferedTimeMin is sampled (DESIGN CHOICE, row 101). -/
def State.checkBuffered (s : State) (e : EngineId) : State :=
  match s.eff e with
  | .running | .yielding =>
    let b := s.bufferedUpdates e
    let us := b / 2
    let s := if us < s.nat (engIx 0x3002 e) 2 then s.put (engIx 0x3002 e) 2 us else s
    let low := decide (b < 40000) && decide (0 < s.undecoded e)
    let level := min 40000 (b + s.undecoded e)
    if low && s.refillFault e then s
    else if low && !s.engines[e].belowObligation then
      ((s.modEngine e fun g => { g with belowObligation := true }).bumpE e 0x3002 3).emit 0x3203 e.val
        [e.val, (s.engines[e].ctx.map fun (c : CtxId) => (c.val : Int)).getD 65535, level / 2, us]
    else s.modEngine e fun g => { g with belowObligation := low }
  | _ => s

/-- Updates of the past that are kept for the samples and for the exposure midpoints of cameras (R119). -/
def State.pastUpdates (s : State) (e : EngineId) : Nat :=
  16 + ((List.range 4).map fun (n : Nat) =>
    if s.engines[e].routed.any fun p => s.inForce 0x5300 (n + 1) == p.val then s.inForce 0x5301 (n + 1) / 500 + 1 else 0).foldl max 0

/-- Drop what lies too far back to matter. -/
def Engine.prune (g : Engine) (k past : Nat) : Engine :=
  let t := upd * (k - past)
  let old := g.plan.filter fun m => decide (m.t0 + m.dur < t)
  { (g.pruneEdges (320 * ((k : Int) - past))) with
    plan := g.plan.drop (old.length - 1)
    leaving := g.leaving.filter fun x => decide (upd * (k - 1) < x)
    frames := g.frames.filter fun f => decide (k < f.k)
    slotPower := g.slotPower.take 24 }

/-- The timer of a forced layer end starts when the last other engine has left (R87). -/
def State.startForced (s : State) (e : EngineId) : State :=
  let g := s.engines[e]
  if s.eff e = .stalled && g.stallLaser && s.lastInLayer e && s.modState == .building then
    if g.forcedTimer.isSome then s
    else
      let ms := match g.routed with | some p => s.nat (portIx 0x4000 p) 3 | none => 0
      s.modEngine e fun g => { g with forcedTimer := some (s.tick + msTicks ms) }
  else if g.forcedTimer.isSome then s.modEngine e fun g => { g with forcedTimer := none }
  else s

/-- What one routed engine does at position instant P_k. -/
def State.updateEngine (s : State) (k : Nat) (e : EngineId) : State :=
  match s.engines[e].routed with
  | none => s
  | some p =>
    let s := if s.emitting && s.engines[e].st != .fault then (s.generate e p (k + 1 + leadUpdates)).postDeposit e p else s
    let s := if s.modState = .building then (s.postLook e k).checkBuffered e else s
    (s.selectIdle e).modEngine e fun g => g.prune k (s.pastUpdates e)

/-- UPDATE: position instant P_k, at tick 40·k (R56): update k + 1 begins, in which the set-points for P_(k+25) are
generated (R57). -/
def execUpdate (s : State) : Out :=
  if s.tick % 40 ≠ 0 then .next s
  else
    let k := s.update
    let s := s.applyEdges
    let s := State.foldFin 12 s fun p s => s.noteSetpoint p
    let s := s.seamSignals
    let s := State.foldFin 13 s fun e s => s.updateEngine k e
    let s := State.foldFin 12 s fun p s => s.sendFrame p (k + 1)
    .next s.assignRemainders

/-- Number of the slot whose LPWR frame has been sent by now: its 24th edge is PwrLead ticks before the slot
(R81). Slot n of port p starts at 160·n eighth-ticks plus GateAlign (R66). -/
def State.slotNow (s : State) (p : LaserId) : Int :=
  (8 * ((s.tick : Int) + s.nat (portIx 0x4000 p) 2) - s.alignOf p) / 160

/-- Ramp factor of a seam MARK, in 1/65,536 (R111). -/
def rampFactor (m : Motion) (t : Nat) : Nat :=
  if m.seamOverlap = 0 then 65536
  else
    let (x, y) := motionAt m t
    let d := if m.seamIncoming then m.seamOffset * 65536 + length16 (x - m.x0) (y - m.y0) / 65536
      else length16 (m.x1 - x) (m.y1 - y) / 65536
    min 65536 ((2 * d + m.seamOverlap) / (2 * m.seamOverlap))

/-- The seam ramp at a slot whose gate is on outside a MARK's motion: past the end of the outgoing MARK the distance left
is 0, and before the incoming MARK's start the distance run is 0 (R111). -/
def Engine.rampsOut (g : Engine) (m : Motion) : Bool :=
  if m.phase == .markDelay then
    match (g.plan.filter fun x => x.inUnit && decide (x.t0 ≤ m.t0)).getLast? with
    | some x => decide (0 < x.seamOverlap) && !x.seamIncoming
    | none => false
  else
    match g.plan.find? fun x => x.inUnit && decide (m.t0 < x.t0) with
    | some x => decide (0 < x.seamOverlap) && x.seamIncoming
    | none => false

/-- The programmed power of a slot with its gate on: SET_POWER in force, the corner scale, and the seam ramp (R66,
R111). -/
def Engine.programmed (g : Engine) (slot : Int) : Nat :=
  let t := slot.toNat * (upd / 2)
  match motionPiece g.plan t with
  | none => g.par.power
  | some m =>
    let p := if m.phase = .corner then (2 * m.power * m.scale + 65535) / (2 * 65535) else m.power
    if m.phase = .mark then (2 * p * rampFactor m t + 65536) / (2 * 65536)
    else if !m.inUnit && g.rampsOut m then 0 else p

/-- Power of the first exposure among words (R66). -/
def nextPower : Params → List VWord → Option Nat
  | _, [] => none
  | p, w :: t =>
    match w with
    | .mark .. => if p.power = 0 then nextPower p t else some p.power
    | .dwell true _ => some p.power
    | w => nextPower (applyParam p w) t

/-- The programmed power of the next gate-on interval after an instant in eighth-ticks: that of the next rise placed, or
of the next exposure in the decoded words; 0 where none is timed (R66). -/
def Engine.preset (g : Engine) (at8 : Int) : Nat :=
  match g.edges.find? fun x => x.rise && decide (at8 < x.at8) with
  | some x => x.power
  | none => (nextPower g.par (g.path ++ (g.buf.drop 1).flatMap (·.words))).getD 0

/-- Record 0x4105 at most once per second, with the count since the last (R81). -/
def State.fallback (s : State) (p : LaserId) : State :=
  let s := (s.bump (portIx 0x4001 p) 2).modLaser p fun l => { l with fallbackSince := l.fallbackSince + 1 }
  match s.lasers[p].fallbackAt with
  | some t =>
    if s.tick < t + 80000000 then s
    else ((s.emit 0x4105 p.val [p.val, s.lasers[p].fallbackSince]).modLaser p fun l =>
      { l with fallbackAt := some s.tick, fallbackSince := 0 })
  | none =>
    (s.emit 0x4105 p.val [p.val, s.lasers[p].fallbackSince]).modLaser p fun l =>
      { l with fallbackAt := some s.tick, fallbackSince := 0 }

/-- The value of a slot (R66, R81): with the gate on in it, the lane's value for the slot or else the programmed
power; otherwise the preset or 0. -/
def State.slotValue (s : State) (p : LaserId) (e : EngineId) (slot : Int) : State × Nat :=
  let g := s.engines[e]
  let a := 160 * slot + s.alignOf p
  if 0 < g.onTime a (a + 160) then
    match (s.lasers[p].pwrQ.take 4).find? fun x => x.1 == slot with
    | some x => (s, x.2)
    | none => (s.fallback p, g.programmed slot)
  else if s.emitting && (s.eff e == .running || s.eff e == .yielding) then (s, g.preset a)
  else (s, 0)

/-- LPWR is clocked: not in OFF, RESET and BOOT, and only while an engine is routed to the port or the crossbar
holds it (R82, R175). -/
def State.lpwrRuns (s : State) (p : LaserId) : Bool :=
  match s.modState with
  | .off | .reset | .boot => false
  | _ => (s.engineOf p).isSome

/-- POWER_SLOT: the LPWR frame of port p for the slot that starts next (R66, R80, R81). -/
def execPowerSlot (p : LaserId) (s : State) : Out :=
  let n := s.slotNow p
  match s.engineOf p with
  | none => .next s
  | some e =>
    if !s.lpwrRuns p || decide (n ≤ s.lasers[p].slotNo) then .next s
    else
      let a := 160 * n + s.alignOf p
      let hold := s.portHeld p
      let (s, v) := if hold then (s, 0) else s.slotValue p e n
      let gate := !hold && s.engines[e].levelAt a
      let s := { s with freed := ((s.lasers[p].pwrQ.filter fun (x : Int × Nat) => decide (x.1 ≤ n)).map fun _ => (6, p.val)) ++ s.freed }
      let s := s.modLaser p fun l =>
        { l with lpwr := v, lpwrSeq := (l.lpwrSeq + 1) % 4, lpwrFrame := lpwrWord gate (l.lpwrSeq + 1) v, slotNo := n
                 pwrQ := l.pwrQ.filter fun x => decide (n < x.1) }
      .next (s.modEngine e fun g => { g with slotPower := (a, v) :: g.slotPower.take 23 })

end Sys2Proof.Machine
end

