-- ==== Sys2Proof/Machine/Links.lean ====
section
/-!
DEFINITION. Scanner links and laser ports (R69, R73 to R78, R83 to R86, R115, R206): upstream frames, start-up,
loss, auxiliary requests, availability, EMIT_EN and SAFETY_OK.
-/
namespace Sys2Proof.Machine

/-- A laser becomes unavailable (R86): a RUNNING or YIELDING engine stops, with record 0x4101 and the count; two
consecutive frames with HFAULT are recorded whatever the engine does (R77). -/
def State.loseLaser (s : State) (p : LaserId) (c : LaserCause) : State :=
  if !s.lasers[p].available then s
  else
    let s := s.modLaser p fun l => { l with available := false, lost := true }
    let stops := (s.engineOf p).any fun e => s.eff e == .running || s.eff e == .yielding
    let s := if stops || c == .hfault then s.emit 0x4101 p.val [p.val, c.code] else s
    let s := if stops then s.bump (portIx 0x4001 p) 3 else s
    -- INIT_HEAD and LINK_EYE themselves restart the link (R197, R206)
    let s := if s.cal.procedure = 9 then s else s.abortOn (some p) 3
    match s.engineOf p with
    | none => s
    | some e =>
      match s.eff e with
      | .running | .yielding => s.stallEngine e 0x0602 true
      | .stalled => s.modEngine e fun g => { g with stallLaser := true }
      | _ => s

/-- An obstacle to availability has ended: the 10 ms of R85 start here. -/
def State.noteClear (s : State) (p : LaserId) : State := s.modLaser p fun l => { l with clearSince := s.tick }

/-- Step 1 of R76: idle, with StartupTimeout running. -/
def State.startLink (s : State) (p : LaserId) : State :=
  s.modLaser p fun l =>
    { l with link := .idle, linkTimer := some (s.tick + msTicks (s.nat (portIx 0x4008 p) 2)), retryTimer := none
             mismatch := false, upstreamGood := 0, upstreamBad := 0, rxerrRun := 0, hfaultRun := 0, regs := []
             auxBusy := none, auxOut := none, auxRetried := false }

/-- A single frame with HFAULT (R77): record 0x4109, at most once per second, with the frames since. -/
def State.headFault (s : State) (p : LaserId) : State :=
  let s := s.modLaser p fun l => { l with hfaultSince := l.hfaultSince + 1 }
  let l := s.lasers[p]
  let due := match l.hfaultAt with | some t => decide (t + 80000000 ≤ s.tick) | none => true
  if due then
    (s.emit 0x4109 p.val [p.val, l.hfaultCode, l.hfaultSince]).modLaser p fun l =>
      { l with hfaultSince := 0, hfaultAt := some s.tick }
  else s

/-- A frame with HFAULT that no further one follows was a single one (R77). -/
def State.closeHeadFault (s : State) (p : LaserId) : State :=
  if s.lasers[p].hfaultRun = 1 then s.headFault p else s

/-- Record LinkLost with its cause: 1 missing or CRC, 2 RXERR, 3 identity mismatch (Table 3.11). -/
def State.loseLink (s : State) (p : LaserId) (cause : Nat) : State :=
  let s := s.closeHeadFault p
  let s := (s.emit 0x4104 p.val [p.val, cause]).bump (portIx 0x4009 p) 4
  (s.loseLaser p .link).startLink p

/-- States in which links run (R76, R78; the load of HOLDUP and THERMAL_OFF is shed). -/
def linksRun : ModState → Bool
  | .selftest | .ready | .armed | .building | .paused | .safe | .service => true
  | _ => false

/-- LINK_STARTUP: idle is sent, from SELFTEST onwards, on a link that LinkEnable sets (R76 step 1). -/
def execLinkStartup (p : LaserId) (s : State) : Out :=
  if linksRun s.modState && s.lasers[p].link == .off && s.nat (portIx 0x4008 p) 1 == 1 then .next (s.startLink p)
  else .next s

/-- Longest run of error-free phases among 64: length and first phase (R206). -/
def eyeRun (phases : BitVec 64) : Nat → Nat → Nat → Nat × Nat → Nat × Nat
  | 0, _, _, best => best
  | f + 1, i, run, best =>
    let run := if phases.getLsbD i then run + 1 else 0
    eyeRun phases f (i + 1) run (if best.1 < run then (run, i + 1 - run) else best)

/-- The receiver scans its eye: EyeWidth, SamplePhase, and record 0xE107 where it is narrow (R206). -/
def State.scanEye (s : State) (p : LaserId) (phases : BitVec 64) : State :=
  let (run, first) := eyeRun phases 64 0 0 (0, 0)
  let s := (s.put (0xE020 + p.val) 1 run).put (0xE020 + p.val) 2 (first + (run - 1) / 2)
  if run < s.nat 0xE003 6 then s.emit 0xE107 p.val [p.val, run] else s

/-- LINK_ALIGN: 256 valid upstream characters; the lane is measured and deskewed, and frames follow (R76 step 3,
R115). -/
def execLinkAlign (p : LaserId) (validChars : Nat) (phases : BitVec 64) (roundTripNs : Nat) (s : State) : Out :=
  let l := s.lasers[p]
  if l.link != .idle || l.linkTimer.isNone || decide (validChars < 256) then .next s
  else
    let s := s.scanEye p phases
    let s := s.put (0x5100 + p.val) 1 (min roundTripNs 65535)
    .next (s.modLaser p fun l =>
      { l with link := .align, roundTrip := roundTripNs, resync := true, upstreamGood := 0, txSeq := 255 })

/-- Send an auxiliary request: it goes out in the next frame and times out after 160 ticks (R75, R76). -/
def State.sendAux (s : State) (p : LaserId) (op addr data : Nat) : State :=
  (s.put (portIx 0x400A p) 2 0).modLaser p fun l =>
    { l with auxBusy := some (addr, op == 2, s.tick + 160), auxOut := some (op, addr, data) }

/-- LINK_IDENTIFY: 64 consecutive good frames; registers 0x0000–0x0007 are read (R76 step 5). -/
def execLinkIdentify (p : LaserId) (s : State) : Out :=
  let l := s.lasers[p]
  if l.link != .align || decide (l.upstreamGood < 64) then .next s
  else
    let s := s.modLaser p fun l => { l with link := .identify, regs := [], auxRetried := false }
    .next (s.sendAux p 1 0 0)

/-- HeadIdentity from registers 1 to 4 (0x4009.07). -/
def headIdentity (regs : List Nat) : Nat :=
  regs.getD 1 0 * 2 ^ 48 + regs.getD 2 0 * 2 ^ 32 + regs.getD 4 0 * 2 ^ 16 + regs.getD 3 0

/-- Registers agree with the record in force (R76 step 6). -/
def State.linkMatches (s : State) (p : LaserId) : Bool :=
  let r := s.lasers[p].regs
  r.getD 0 0 == 1 &&
    match s.records[p.val]'(by have := p.isLt; omega) with
    | some c => c.w == r.getD 6 0 && c.f == r.getD 7 0
    | none => false

/-- LINK_UP: the head's registers decide between UP and the identity mismatch (R76 step 6, R116, R191). -/
def execLinkUp (p : LaserId) (s : State) : Out :=
  let l := s.lasers[p]
  if l.link != .identify || l.mismatch || decide (l.regs.length < 8) then .next s
  else if !s.linkMatches p then
    let s := s.modLaser p fun l => { l with mismatch := true, linkTimer := none }
    .next (s.emit 0x4104 p.val [p.val, 3])
  else
    let ident := headIdentity l.regs
    let lat := l.regs.getD 5 0
    let ready := decide (l.roundTrip ≤ 600)
    let s := s.modLaser p fun l => { l with link := .up, linkTimer := none, loopReady := ready, clearSince := s.tick }
    let s := ((s.put (portIx 0x4009 p) 6 lat).put (portIx 0x4009 p) 7 ident).put (0x5100 + p.val) 2 (b2n ready)
    let s := s.emit 0x4103 p.val [p.val, ident, lat]
    let s := if ready then s else s.emit 0x5105 p.val [p.val, l.roundTrip]
    match s.records[p.val]'(by have := p.isLt; omega) with
    | some c =>
      if c.headIdentity = ident then .next (s.put (0xE030 + p.val) 4 1)
      else .next ((s.put (0xE030 + p.val) 4 0).emit 0xE106 p.val [p.val, c.headIdentity, ident])
    | none => .next s

/-- STARTUP_TIMEOUT: an attempt neither UP nor stopped at a mismatch ends; the next starts 1 s later (R76). -/
def execStartupTimeout (p : LaserId) (s : State) : Out :=
  match s.lasers[p].linkTimer with
  | some t =>
    if s.tick < t then .next s
    else .next (s.modLaser p fun l =>
      { l with link := .idle, linkTimer := none, retryTimer := some (s.tick + 80000000), auxBusy := none })
  | none => .next s

/-- LINK_RETRY: a new attempt 1 s after one that ended (R76). -/
def execLinkRetry (p : LaserId) (s : State) : Out :=
  match s.lasers[p].retryTimer with
  | some t => if s.tick < t || !linksRun s.modState then .next s else .next (s.startLink p)
  | none => .next s

/-- LINK_LOST: 4 consecutive frames missing or bad, or RXERR in 4 (R77). -/
def execLinkLost (p : LaserId) (s : State) : Out :=
  let l := s.lasers[p]
  if l.link != .up && l.link != .identify then .next s
  else if 4 ≤ l.upstreamBad then .next (s.loseLink p 1)
  else if 4 ≤ l.rxerrRun then .next (s.loseLink p 2)
  else .next s

/-- LINK_ENABLE_WRITE: 0 sends nothing and makes the laser unavailable; 0 to 1 starts an attempt (R76, Table
3.10). -/
def execLinkEnableWrite (q : Sess) (p : LaserId) (v : Byte) (s : State) : Out :=
  .next <| s.host q (portIx 0x4008 p) 1 v.toNat fun s =>
    if v.toNat > 1 then refused s 0x0201
    else
      let old := s.nat (portIx 0x4008 p) 1
      let s := s.put (portIx 0x4008 p) 1 v.toNat
      if v = 0 then
        accepted (((s.closeHeadFault p).loseLaser p .link).modLaser p fun l =>
          { l with link := .off, linkTimer := none, retryTimer := none, auxBusy := none, mismatch := false, hfaultRun := 0, rxerrRun := 0 })
      else if old = 0 && linksRun s.modState then accepted (s.startLink p)
      else accepted s

/-- HFAULT_UNAVAILABLE: HFAULT in 2 consecutive frames (R77). -/
def execHfaultUnavailable (p : LaserId) (s : State) : Out :=
  if s.lasers[p].hfaultRun < 2 then .next s
  else .next ((s.modLaser p fun l => { l with withdrawn := true }).loseLaser p .hfault)

/-- The answer to an auxiliary request arrives (R75): done, with its data; a start-up read goes on to the next
register (R76 step 5). -/
def State.auxAnswer (s : State) (p : LaserId) (data : Nat) : State :=
  match s.lasers[p].auxBusy with
  | none => s
  | some _ =>
    let s := (s.put (portIx 0x400A p) 2 (2 ^ 31 + data)).modLaser p fun l => { l with auxBusy := none, auxRetried := false }
    let l := s.lasers[p]
    if l.link == .identify && decide (l.regs.length < 8) && !l.mismatch then
      let s := s.modLaser p fun l => { l with regs := l.regs ++ [data] }
      if l.regs.length + 1 < 8 then s.sendAux p 1 (l.regs.length + 1) 0 else s
    else s

/-- Head temperature: T_head is the mean of the last whole millisecond (R69). -/
def Laser.takeTemp (l : Laser) (v : Int) (tick : Nat) : Laser :=
  let ms := tick / 80000
  let l := if l.tempMs ≠ ms && l.tempCount ≠ 0 then
      { l with tHeadNum := l.tempSum, tHeadDen := l.tempCount, tempSum := 0, tempCount := 0 }
    else l
  { l with tempMs := ms, tempSum := l.tempSum + v, tempCount := l.tempCount + 1, tempAt := tick, tempStale := false }

/-- Sample instants of the pairs of upstream frame k, in eighth-ticks (R115): P_k + RoundTrip/2 less 500 and 250
ns. -/
def pairInstant (k : Int) (roundTripNs : Nat) (pair : Nat) : Int :=
  320 * k + roundDiv (8 * (roundTripNs : Int)) 25 - (if pair = 0 then 320 else 160)

/-- A pair goes into Q_MPS, or waits at the link for a credit (R14, Table 1.3). -/
def State.pushPair (s : State) (p : LaserId) (x : SamplePair) : State :=
  let s := if 16 ≤ s.lasers[p].mpsQ.length + s.freedOf 5 p.val then s.waited 5 else s
  s.modLaser p fun l => { l with mpsQ := l.mpsQ ++ [x] }

/-- Both pairs of a frame enter Q_MPS for the lane of the engine routed to the link (R115, R117); invalid ones are
counted. -/
def State.pushPairs (s : State) (p : LaserId) (k : Int) (valid : Bool) (w : Nat) : State :=
  let l := s.lasers[p]
  let sat := bitOf w 121
  let a : SamplePair := { valid := valid, rawA := field w 23 8, rawB := field w 39 24, pdsat := sat
                          at8 := pairInstant k l.roundTrip 0 }
  let b : SamplePair := { valid := valid, rawA := field w 55 40, rawB := field w 71 56, pdsat := sat
                          at8 := pairInstant k l.roundTrip 1 }
  let s := if (s.engineOf p).isSome then (s.pushPair p a).pushPair p b else s
  if valid then s else s.count (0x5100 + p.val) 5 2

/-- A frame missing or failing its CRC (R77, R117). -/
def State.badFrame (s : State) (p : LaserId) (k : Int) : State :=
  let s := ((s.closeHeadFault p).bump (portIx 0x4009 p) 3).modLaser p fun l =>
    { l with upstreamBad := l.upstreamBad + 1, upstreamGood := 0, rxerrRun := 0, hfaultRun := 0 }
  s.pushPairs p k false 0

/-- Number of the upstream frame that ends now: frame k starts RoundTrip after P_k and lasts one update (R115). -/
def State.frameNo (s : State) (p : LaserId) : Int :=
  (8 * (s.tick : Int) - roundDiv (16 * (s.lasers[p].roundTrip : Int)) 25 - 320) / 320

/-- A good upstream frame (Table 3.5). -/
def State.goodFrame (s : State) (p : LaserId) (k : Int) (w : Nat) : State :=
  let rxerr := bitOf w 123
  let hfault := bitOf w 120
  let mux := field w 143 128
  let sel := field w 127 124
  let was := s.lasers[p].hfaultRun
  -- one frame with HFAULT between frames without it
  let s := if !hfault then s.closeHeadFault p else s
  let s := if !hfault && 2 ≤ was then s.noteClear p else s
  let s := s.modLaser p fun l =>
    { l with
      upstreamGood := l.upstreamGood + 1, upstreamBad := 0, rxerrRun := if rxerr then l.rxerrRun + 1 else 0
      hfaultRun := if hfault then l.hfaultRun + 1 else 0, withdrawn := l.withdrawn && hfault
      hfaultCode := if hfault && sel = 3 then mux else l.hfaultCode
      actX := signed 24 (field w 95 72), actY := signed 24 (field w 119 96) }
  let s := if rxerr then s.bump (portIx 0x4009 p) 2 else s
  let s := if sel = 0 then
      (s.put (portIx 0x4009 p) 5 (signed 16 mux)).modLaser p fun l => l.takeTemp (signed 16 mux) s.tick
    else if sel = 1 then s.auxAnswer p mux
    else s
  s.pushPairs p k (!rxerr && !hfault && s.lasers[p].link == .up) w

/-- UPSTREAM_FRAME: a frame from the head, or its absence (R72, R73, R77, R115). -/
def execUpstreamFrame (p : LaserId) (frame : Option (BitVec 160)) (s : State) : Out :=
  let l := s.lasers[p]
  if l.link = .off ∨ l.link = .idle then .next s
  else
    let k := s.frameNo p
    match frame with
    | none => .next (s.badFrame p k)
    | some f => if crcOk f.toNat then .next (s.goodFrame p k f.toNat) else .next (s.badFrame p k)

/-- HEAD_TEMPERATURE_STALE: none has arrived for 1 s; the last T_head stays in use (R69). -/
def execHeadTemperatureStale (p : LaserId) (s : State) : Out :=
  let l := s.lasers[p]
  if (l.link != .up && l.tempAt == 0) || l.tempStale || decide (s.tick < l.tempAt + 80000000) then .next s
  else .next ((s.modLaser p fun l => { l with tempStale := true }).emit 0x4107 p.val [p.val, l.tHeadNum / l.tHeadDen])

/-- A host request to the head's registers (0x400A.01 AuxRequest). -/
def State.auxRequest (s : State) (q : Sess) (p : LaserId) (op addr data : Nat) : State :=
  s.host q (portIx 0x400A p) 1 (op * 2 ^ 30 + addr * 2 ^ 16 + data) fun s =>
    if op ≠ 1 ∧ op ≠ 2 then refused s 0x0201
    else if s.lasers[p].auxBusy.isSome then refused s 0x0301
    else if s.lasers[p].link != .up then refused s 0x0602
    else accepted ((s.put (portIx 0x400A p) 1 (op * 2 ^ 30 + addr * 2 ^ 16 + data)).sendAux p op addr data)

/-- AUX_READ: AuxRequest with operation 0b01 (Table 3.10). -/
def execAuxRead (q : Sess) (p : LaserId) (addr : BitVec 14) (s : State) : Out :=
  .next (s.auxRequest q p 1 addr.toNat 0)

/-- AUX_WRITE: AuxRequest with operation 0b10 (Table 3.10). -/
def execAuxWrite (q : Sess) (p : LaserId) (addr : BitVec 14) (data : BitVec 16) (s : State) : Out :=
  .next (s.auxRequest q p 2 addr.toNat data.toNat)

/-- AUX_RESPONSE: the head answers (R75). -/
def execAuxResponse (p : LaserId) (data : BitVec 16) (s : State) : Out := .next (s.auxAnswer p data.toNat)

/-- AUX_TIMEOUT: 160 ticks without an answer: the timeout bit; a start-up read is retried once (R76). -/
def execAuxTimeout (p : LaserId) (s : State) : Out :=
  let l := s.lasers[p]
  match l.auxBusy with
  | none => .next s
  | some (addr, _, t) =>
    if s.tick < t then .next s
    else
      let s := (s.put (portIx 0x400A p) 2 (2 ^ 30)).modLaser p fun l => { l with auxBusy := none }
      if l.link == .identify && !l.auxRetried then
        .next ((s.sendAux p 1 addr 0).modLaser p fun l => { l with auxRetried := true })
      else .next s

/-- LASER_UNAVAILABLE: READY falls or the alarm is sampled (R85, R86). -/
def execLaserUnavailable (p : LaserId) (ready alarmL : Bool) (s : State) : Out :=
  let s := s.modLaser p fun l => { l with readyHigh := ready, alarmHigh := alarmL }
  if !ready then .next (s.loseLaser p .ready)
  else if !alarmL then .next (s.loseLaser p .alarm)
  else .next s

/-- The engine of a laser that becomes available goes on (R86): a STALLED one resumes where it has work, an ARMED
one that waits at layer start enters RUNNING. -/
def State.laserBack (s : State) (e : EngineId) : State :=
  match s.eff e with
  | .stalled =>
    let s := s.modEngine e fun g => { g with stallLaser := false, forcedTimer := none }
    if s.engines[e].noWork then s else s.resumeEngine e
  | .armed =>
    if s.engines[e].readyTimer.isSome then
      let s := s.modEngine e fun g => { g with readyTimer := none }
      (s.select e s.contexts.length).1.setEff e .running 0
    else s
  | _ => s

/-- LASER_AVAILABLE: every condition of R85 holds, and has held for 10 ms (800,000 ticks) where the laser had become
unavailable; record 0x4102 (R86). -/
def execLaserAvailable (p : LaserId) (readyTicks : Nat) (s : State) : Out :=
  let s := s.modLaser p fun l => { l with readyHigh := true, alarmHigh := true }
  let l := s.lasers[p]
  let soon := decide (readyTicks < 800000) || decide (s.tick < l.clearSince + 800000)
  if l.available || !l.usable || (l.lost && soon) then .next s
  else
    let s := (s.modLaser p fun l => { l with available := true, lost := false }).emit 0x4102 p.val [p.val]
    match s.engineOf p with
    | some e => .next (s.laserBack e)
    | none => .next s

/-- EMIT_READBACK: the output voltage, read every 1 ms; three readings that differ from the command make the laser
unavailable (R83). -/
def execEmitReadback (p : LaserId) (on : Bool) (s : State) : Out :=
  let l := s.lasers[p]
  if on = l.emitEn then
    let s := if 3 ≤ l.emitMismatch then s.noteClear p else s
    .next (s.modLaser p fun l => { l with emitReadback := on, emitMismatch := 0 })
  else
    let s := s.modLaser p fun l => { l with emitReadback := on, emitMismatch := l.emitMismatch + 1 }
    if s.lasers[p].emitMismatch = 3 then
      .next ((s.emit 0x4106 p.val [p.val, b2n l.emitEn, b2n on]).loseLaser p .emit)
    else .next s

/-- EMIT_EN of port p as R83 commands it in the present state; off while no engine is routed to the port (R82). -/
def State.emitCommand (s : State) (p : LaserId) : Bool :=
  s.safetyOk && (s.engineOf p).isSome && ((s.modState == .building && bitOf s.layer.emitMask p)
    || (s.modState == .service && s.cal.running && s.cal.laser == p))

/-- EMIT_EN of every port follows its command; one that an overload turned off can turn on once it has been commanded
off (R83, R384). -/
def State.emitUpdate (s : State) : State :=
  State.foldFin 12 s fun p s =>
    let cmd := s.emitCommand p
    let s := if cmd && !s.lasers[p].emitEn then s.overloadClear p.val else s
    s.modLaser p fun l => { l with emitEn := cmd, overloadOff := l.overloadOff && cmd && l.emitEn }

/-- SAFETY_OK_RISE: 10 ms of high samples are a rise; no state changes (R84). -/
def execSafetyOkRise (highTicks : Nat) (s : State) : Out :=
  if highTicks < 800000 then .next s else .next { s with safetyOk := true }

end Sys2Proof.Machine
end

