-- ==== Sys2Proof/Machine/MeltPool.lean ====
section
/-!
DEFINITION. Melt-pool sensing and the Heat Ledger (chapter 5): deposits, decay, tile fills, the sweep, look-ahead,
sample correction, anomalies and re-melt injection.
-/
namespace Sys2Proof.Machine

/-- 2^(2^−i) for i = 1 to 11, scaled by 2^64. -/
def rootsOfTwo : List Nat :=
  [26087635650665564424, 21936999301089678046, 20116317054877281741, 19263451207323153961, 18850675170876015534,
   18647615946650685158, 18546908069882975960, 18496758270674070881, 18471734244850835105, 18459234930309000272,
   18452988445124272033]

/-- Product of the roots that the bits of r select, highest bit first. -/
def rootProduct : List Nat → Nat → Nat → Nat → Nat
  | [], _, _, acc => acc
  | c :: t, i, r, acc => rootProduct t (i - 1) r (if bitOf r i then acc * c / 2 ^ 64 else acc)

/-- Energy density of a Code in J/mm², scaled by 2^64 (Table 5.3). -/
def densityOf (code : Nat) : Nat :=
  if code = 0 then 0
  else
    let n : Int := (code : Int) - 32768
    let q := n / 2048
    let m := rootProduct rootsOfTwo 10 (n % 2048).toNat (2 ^ 64)
    if 0 ≤ q then m * 2 ^ q.toNat else m / 2 ^ (-q).toNat

/-- Binary digits of a base-2 logarithm by squaring: mantissa scaled by 2^96. -/
def logBits : Nat → Nat → Nat → Nat
  | 0, _, acc => acc
  | f + 1, m, acc =>
    let m2 := m * m / 2 ^ 96
    if m2 ≥ 2 ^ 97 then logBits f (m2 / 2) (2 * acc + 1) else logBits f m2 (2 * acc)

/-- Code of a density scaled by 2^64: base-2 logarithm to the nearest step (R121). -/
def codeOf (v : Nat) : Nat :=
  if v = 0 then 0
  else
    let l := Nat.log2 v
    let y : Int := ((l : Int) - 64) * 4096 + (logBits 12 (v * 2 ^ 96 / 2 ^ l) 0 : Nat)
    let c := 32768 + (y + 1) / 2
    if c < 1 then 0 else min c.toNat 65534

/-- Ledger time in half-microseconds (R122). -/
def State.ledgerHalfUs (s : State) : Nat := (s.tick - s.ledger.zero) / 40

/-- Ledger time in ms. -/
def State.ledgerMs (s : State) : Nat := (s.tick - s.ledger.zero) / 80000

/-- Code and Touch of a cell word (Table 5.3). -/
def cellCode (w : Nat) : Nat := w / 65536
def cellTouch (w : Nat) : Nat := w % 65536

/-- Age in half-microseconds of a cell at a time (R122). -/
def cellAge (w half : Nat) : Nat := (half / 2000 + 65536 - cellTouch w) % 65536 * 2000 + half % 2000

/-- The decayed Code of a known cell, or of an unknown one that has aged out; 65,535 stays unknown (R122, R128). -/
def decayed (h w half : Nat) : Nat :=
  let age := cellAge w half
  if cellCode w = 65535 then (if age ≥ 32 * h * 2000 then 0 else 65535)
  else
    -- 2,048 × age / (1,000 × H) with age in half-microseconds
    let d := (2 * 2048 * age + 2000 * h) / (2 * 2000 * h)
    if cellCode w ≤ d then 0 else cellCode w - d

/-- HalfLife and cell size in force at ARM. -/
def State.halfLife (s : State) : Nat := s.armNat 0x5200 2
def State.cellSize (s : State) : Nat := s.armNat 0x5200 1

/-- Key of a cell. -/
def cellKey (i j : Nat) : Nat := j * 65536 + i

/-- Cell word; a cell that is not listed is 0 (R120). -/
def State.cell (s : State) (i j : Nat) : Nat := (assocGet (cellKey i j) s.ledger.cells).getD 0

def State.setCell (s : State) (i j w : Nat) : State :=
  let l := if w = 0 then assocDel (cellKey i j) s.ledger.cells else assocPut (cellKey i j) w s.ledger.cells
  { s with ledger := { s.ledger with cells := l } }

/-- Weight of a footprint cell (R123). -/
def State.kernel (s : State) (di dj : Int) : Nat :=
  if di = 0 ∧ dj = 0 then s.armNat 0x5200 3 else if di = 0 ∨ dj = 0 then s.armNat 0x5200 4 else s.armNat 0x5200 5

/-- Density scaled by 2^64 that weight w of an energy adds to a cell (R123): w × E / C², with 1.5625 ns per
eighth-tick. -/
def depositDensity (w energy c : Nat) : Nat := w * energy * 25 * 2 ^ 64 / (16 * 65535 * 65536 * c * c * 1000)

/-- Add a density to a cell with a new Touch; an unknown cell stays as it is (R123, R128). -/
def State.addCell (s : State) (i j density : Nat) : State :=
  let w := s.cell i j
  let ms := s.ledgerMs
  let c := decayed s.halfLife w (ms * 2000)
  if c = 65535 then s
  else s.setCell i j (codeOf (densityOf c + density) * 65536 + ms % 65536)

/-- The footprint cells of a deposit (R123). -/
def footprint : List (Int × Int) := [(-1, -1), (0, -1), (1, -1), (-1, 0), (0, 0), (1, 0), (-1, 1), (0, 1), (1, 1)]

/-- A grid position is a cell. -/
def State.inGrid (s : State) (i j : Int) : Bool :=
  decide (0 ≤ i) && decide (i < s.ledger.cols) && decide (0 ≤ j) && decide (j < s.ledger.rows)

/-- Apply a deposit to its footprint cells in tiles that satisfy a test (R123, R126). -/
def State.applyDeposit (s : State) (d : Deposit) (tile : Nat × Nat → Bool) : State :=
  footprint.foldl (fun s (di, dj) =>
    let i := d.cellI + di
    let j := d.cellJ + dj
    if s.inGrid i j && tile (i.toNat / 4, j.toNat / 4) then
      s.addCell i.toNat j.toNat (depositDensity (s.kernel di dj) d.energy s.cellSize)
    else s) s

/-- Tiles that a footprint touches. -/
def State.tilesOf (s : State) (d : Deposit) : List (Nat × Nat) :=
  ((footprint.filter fun (di, dj) => s.inGrid (d.cellI + di) (d.cellJ + dj)).map fun (di, dj) =>
    ((d.cellI + di).toNat / 4, (d.cellJ + dj).toNat / 4)).eraseDups

/-- Bank of a tile (R124). -/
def bankOf (t : Nat × Nat) : Nat := t.1 % 2 + 2 * (t.2 % 2)

/-- A deposit that finds the miss buffer full (R126): counted, recorded at most once per second. -/
def State.dropDeposit (s : State) : State :=
  let s := s.bump 0x5201 4
  let s := { s with ledger := { s.ledger with dropSince := s.ledger.dropSince + 1 } }
  let due := match s.ledger.dropAt with | some t => decide (t + 80000000 ≤ s.tick) | none => true
  if due then
    let t := s.emit 0x5202 255 [s.ledger.dropSince]
    { t with ledger := { t.ledger with dropAt := some s.tick, dropSince := 0 } }
  else s

/-- A fill or a spill of a bank is held by a fault under resolution (R126). -/
def State.bankHeld (s : State) (b : Nat) : Bool :=
  (s.ledger.heldFills ++ s.ledger.heldSpills).any fun t => bankOf t == b

/-- An access to a tile misses, and its fill cannot go on (R126). -/
def State.tileMisses (s : State) (t : Nat × Nat) : Bool :=
  !s.ledger.cached.contains t && s.bankHeld (bankOf t)

/-- Bring a tile into its bank's 8,192 places (R124). Which tile a full bank gives up the spec does not say: a free
value (row 112). -/
def State.takeTile (s : State) (t : Nat × Nat) : State :=
  if s.ledger.cached.contains t then s
  else
    let bank := s.ledger.cached.filter fun x => bankOf x == bankOf t
    if bank.length < 8192 then { s with ledger := { s.ledger with cached := s.ledger.cached ++ [t] } }
    else
      let r := s.takeFree
      let out := bank.getD (r.1 % 8192) t
      { r.2 with ledger := { r.2.ledger with cached := (r.2.ledger.cached.erase out) ++ [t] } }

/-- ApplyLatencyMax (0x5201.06): the longest application of a deposit, from its completion (R125). -/
def State.noteApplied (s : State) (d : Deposit) : State :=
  let late := s.tick - tickOf8 d.at8
  if s.nat 0x5201 6 < late then s.put 0x5201 6 (min late 65535) else s

/-- Apply the part of a deposit that lies in one tile, by one read-modify-write of the tile (R124). -/
def State.applyPart (s : State) (d : Deposit) (t : Nat × Nat) : State :=
  ((s.takeTile t).applyDeposit d fun x => x == t).noteApplied d

/-- A part of a deposit that misses waits in its bank's miss buffer of 64, or is dropped (R126). -/
def State.holdPart (s : State) (d : Deposit) (t : Nat × Nat) : State :=
  if ((s.ledger.missQ.filter fun m => bankOf (m.1, m.2.1) == bankOf t).length) < 64 then
    { s with ledger := { s.ledger with missQ := s.ledger.missQ ++ [(t.1, t.2, d)] } }
  else s.dropDeposit

/-- Parts that wait in the miss buffers and no longer miss are applied, in arrival order (R124, R126). -/
def State.drainMisses (s : State) : State :=
  let ready := s.ledger.missQ.filter fun m => !s.tileMisses (m.1, m.2.1)
  let s := { s with ledger := { s.ledger with missQ := s.ledger.missQ.filter fun m => s.tileMisses (m.1, m.2.1) } }
  ready.foldl (fun s m => s.applyPart m.2.2 (m.1, m.2.1)) s

/-- DEPOSIT: the ledger applies an engine's oldest deposit once it is complete (R123 to R126). -/
def execDeposit (e : EngineId) (s : State) : Out :=
  match s.engines[e].ledgerQ with
  | [] => .next s
  | d :: t =>
    if 8 * (s.tick : Int) < d.at8 then .next s
    else
      let s := (s.freeCredit 7 e.val).modEngine e fun g => { g with ledgerQ := t }
      .next ((s.tilesOf d).foldl (fun s t => if s.tileMisses t then s.holdPart d t else s.applyPart d t) s)

/-- Bed rectangle of a tile, in bed units. -/
def State.tileRect (s : State) (ti tj : Nat) : List Int :=
  let c : Int := 4 * 40 * s.cellSize
  [ti * c - s.bedHalf.1, tj * c - s.bedHalf.2, (ti + 1) * c - s.bedHalf.1, (tj + 1) * c - s.bedHalf.2]

/-- Every cell of a tile, in turn. -/
def State.eachCell (s : State) (ti tj : Nat) (f : State → Nat → Nat → State) : State :=
  (List.range 16).foldl (fun s n => f s (4 * ti + n % 4) (4 * tj + n / 4)) s

/-- The 16 cells of a tile become unknown (R128). -/
def State.tileUnknown (s : State) (ti tj : Nat) : State :=
  let s := s.eachCell ti tj fun s i j => s.setCell i j (65535 * 65536 + s.ledgerMs % 65536)
  (s.bump 0x5201 5).emit 0x5203 255 (s.tileRect ti tj ++ [(s.ledgerMs : Int)])

/-- A tile of the grid. -/
def State.isTile (s : State) (ti tj : Nat) : Bool := decide (4 * ti < s.ledger.cols) && decide (4 * tj < s.ledger.rows)

/-- LEDGER_TILE_FILL: a fill completes and the deposits that wait are applied (R126); an uncorrectable one leaves the tile
unknown (R128). -/
def execLedgerTileFill (ti tj : Nat) (uncorrectable : Bool) (s : State) : Out :=
  if !s.isTile ti tj then .next s
  else
    let s := ({ s with ledger := { s.ledger with heldFills := s.ledger.heldFills.filter fun t => t != (ti, tj) } } : State).takeTile (ti, tj)
    .next (if uncorrectable then s.tileUnknown ti tj else s).drainMisses

/-- A spill held by a fault goes on, or its tile stays resident and unknown (Table 7.8). -/
def State.spillEnds (s : State) (t : Nat × Nat) (lost : Bool) : State :=
  let s := { s with ledger := { s.ledger with heldSpills := s.ledger.heldSpills.filter fun x => x != t } }
  (if lost && s.isTile t.1 t.2 then s.tileUnknown t.1 t.2 else s).drainMisses

/-- LEDGER_SWEEP: each known cell of a tile is written decayed to the sweep's ms boundary, an aged unknown one as
0; a tile at most once in 4,096 ms (R127, R128). -/
def execLedgerSweep (ti tj : Nat) (s : State) : Out :=
  let key := cellKey ti tj
  let ms := s.ledgerMs
  let early := match assocGet key s.ledger.swept with | some t => decide (ms < t + 4096) | none => false
  if !s.isTile ti tj || early || s.tileMisses (ti, tj) then .next s
  else
    let s := (s.takeTile (ti, tj)).eachCell ti tj fun s i j =>
      let w := s.cell i j
      if w = 0 then s
      else
        let c := decayed s.halfLife w (ms * 2000)
        if c = 65535 then s else s.setCell i j (if c = 0 then 0 else c * 65536 + ms % 65536)
    .next { s with ledger := { s.ledger with swept := assocPut key ms s.ledger.swept } }

/-- Tiles that the sweep visits at a ms boundary: those that hold energy and were last visited 8,192 ms ago or more. The
order and timing within the bounds of R127 are the device's own (DESIGN CHOICE, row 112). -/
def State.sweepDue (s : State) : List (Nat × Nat) :=
  let tiles := (s.ledger.cells.map fun x => (x.1 % 65536 / 4, x.1 / 65536 / 4)).eraseDups
  tiles.filter fun t => decide ((assocGet (cellKey t.1 t.2) s.ledger.swept).getD 0 + 8192 ≤ s.ledgerMs)

/-- Tiles of a look-ahead request's footprint. -/
def State.lookTiles (s : State) (r : LookReq) : List (Nat × Nat) := s.tilesOf { cellI := r.cellI, cellJ := r.cellJ }

/-- Preheat at a cell and a future time (R129): a Code, or none for UNKNOWN. -/
def State.preheat (s : State) (r : LookReq) : Option Nat :=
  footprint.foldl (fun acc (di, dj) =>
    match acc with
    | none => none
    | some q =>
      let i := r.cellI + di
      let j := r.cellJ + dj
      if !s.inGrid i j then some q
      else if s.tileMisses (i.toNat / 4, j.toNat / 4) then none
      else
        let c := decayed s.halfLife (s.cell i.toNat j.toNat) ((40 * r.update - s.ledger.zero) / 40)
        if c = 65535 then none else some (q + s.kernel di dj * densityOf c)) (some 0)

/-- LOOKAHEAD_RESULT: the ledger answers an engine's oldest request into Q_LOOK, which holds 64 (R129, R18). -/
def execLookaheadResult (e : EngineId) (s : State) : Out :=
  let n : LaneId := ⟨e.val, by have := e.isLt; omega⟩
  match s.engines[e].lookReqs with
  | [] => .next s
  | r :: t =>
    if 64 ≤ s.lanes[n].lookQ.length + s.freedOf 8 e.val then
      if r.waited then .next s
      else .next ((s.waited 8).modEngine e fun g => { g with lookReqs := { r with waited := true } :: t })
    else
      let q := (s.preheat r).map fun v => codeOf (v / 65536)
      let s := (s.lookTiles r).foldl (fun s t => if s.tileMisses t then s else s.takeTile t) s
      let s := s.modEngine e fun g => { g with lookReqs := t }
      .next (s.modLane n fun l => { l with lookQ := l.lookQ ++ [(r.update, q)] })

/-- A raw sample corrected by a band's figures (R118). -/
def corrected (raw offset gain : Nat) : Nat :=
  (clampInt (roundDiv (((raw : Int) - offset) * gain) 4096) 0 65535).toNat

/-- The melt-pool signal (Table 5.2). -/
def meltSignal (sel sa sb : Nat) : Nat :=
  match sel with
  | 0 => sa
  | 1 => sb
  | 2 => (sa + sb) / 2
  | _ => if sb = 0 then 65535 else min 65535 ((2 * 32768 * sa + sb) / (2 * sb))

/-- A pair is saturated (R117). -/
def SamplePair.saturated (x : SamplePair) : Bool := x.pdsat || x.rawA == 0xFFFF || x.rawB == 0xFFFF

/-- Signal of a pair of laser p (R118). -/
def State.signalOf (s : State) (p : LaserId) (x : SamplePair) : Nat :=
  if x.saturated then 65535
  else
    let c := (s.records[p.val]'(by have := p.isLt; omega)).getD {}
    meltSignal (s.armNat 0x5000 1) (corrected x.rawA c.offsetA c.gainA) (corrected x.rawB c.offsetB c.gainB)

/-- The piece of the plan whose unit a gate-on sample belongs to (R132). -/
def Engine.unitPiece (g : Engine) (t rise : Nat) : Option Motion :=
  let units := g.plan.filter fun m => m.inUnit
  let begun := units.filter fun m => decide (m.t0 ≤ t) && decide (rise < m.t0 + m.dur)
  match begun.getLast? with
  | some m => some m
  | none => units.find? fun m => decide (t < m.t0)

/-- A qualifying sample (R132): its bed position, the labels of its MARK, and the set-point and band of its slot. -/
structure Sample where
  x : Int
  y : Int
  partId : Nat
  featureTag : Nat
  setPoint : Nat
  bandLow : Nat
  bandHigh : Nat
  deriving DecidableEq, Repr

/-- A sample of an engine that qualifies for the anomaly check (R132). The sample's slot is the power slot that contains
t_s: the spec does not name it otherwise (DEDUCED, row 105). -/
def State.qualifies (s : State) (e : EngineId) (ga : Int) (x : SamplePair) : Option Sample :=
  let g := s.engines[e]
  let ss := x.at8 - (x.at8 - ga) % 160
  let rise := g.riseAt x.at8
  let whole := g.onTime ss (ss + 160) == 160
  let piece := g.unitPiece (planTime (x.at8 - ga)) (planTime (rise - ga))
  let mask := match piece with
    | some m => m.phase != .dwellOn && m.anomMask
    | none => false
  let (sp, lo, hi) := match motionPiece g.plan (planTime (ss - ga)) with
    | some m => (m.setPoint, m.bandLow, m.bandHigh)
    | none => (g.par.setPoint, g.par.bandLow, g.par.bandHigh)
  let blank := decide (((x.at8 - rise) / 160).toNat < s.armNat 0x5000 3)
  if x.valid && whole && !mask && !blank && !(lo == 0 && hi == 65535) then
    let (px, py) := g.posAt (planTime (x.at8 - ga))
    some { x := bedUnit px, y := bedUnit py, setPoint := sp, bandLow := lo, bandHigh := hi
           partId := (piece.map (·.partId)).getD g.par.partId
           featureTag := (piece.map (·.featureTag)).getD g.par.featureTag }
  else none

/-- Context number of an engine's running context. -/
def Engine.ctxNo (g : Engine) : Int := (g.ctx.map fun (c : CtxId) => (c.val : Int)).getD 65535

/-- A run that has reached AnomalyTime becomes an anomaly (R133), record 0x5101 with the labels, set-point and band of the
sample that reached it. -/
def State.startAnomaly (s : State) (p : LaserId) : State :=
  match s.lasers[p].anom, s.engineOf p with
  | some r, some e =>
    if r.active || decide (r.length < s.armNat 0x5000 2) then s
    else
      let g := s.engines[e]
      let s := s.modLaser p fun l => { l with anom := some { r with active := true } }
      (s.bump (0x5100 + p.val) 3).emit 0x5101 p.val
        [p.val, e.val, g.ctxNo, r.partId, r.featureTag, b2n (!r.low), r.posX, r.posY, r.setPoint, r.bandLow, r.bandHigh]
  | _, _ => s

/-- A template's box, offset to a position, lies on the bed and in a laser's field region (R135). -/
def State.boxFits (s : State) (p : LaserId) (r : Rect) (x y : Int) : Bool :=
  let f := s.region p.val
  let (hx, hy) := s.bedHalf
  decide (max (-hx) f.x0 ≤ r.x0 + x) && decide (r.x1 + x ≤ min hx f.x1)
    && decide (max (-hy) f.y0 ≤ r.y0 + y) && decide (r.y1 + y ≤ min hy f.y1)

/-- The lowest FREE context (R135). -/
def State.freeContext (s : State) : Option Nat :=
  (List.range 512).find? fun n => match assocGet n s.contexts with | some c => c.st == .free | none => true

/-- Record RemeltRefused (Table 5.7), cause 1 no candidate, 2 no context, 3 pending, 4 state, 5 layer ended. -/
def State.remeltRefused (s : State) (p : Nat) (x y : Int) (cause : Nat) : State :=
  s.emit 0x5104 p [p, x, y, cause]

/-- One injection attempt at an anomaly end (R135). -/
def State.injectRemelt (s : State) (p : LaserId) (x y : Int) : State :=
  if s.armNat 0x5000 4 = 0 then s
  else if s.modState ≠ .building then s.remeltRefused p x y 4
  else if s.contexts.any fun c => c.2.injected && c.2.injector == p.val && c.2.st != .done && c.2.st != .free then
    s.remeltRefused p x y 3
  else
    match s.layer.template with
    | none => s.remeltRefused p x y 1
    | some (h, box) =>
      let ok := fun (l : LaserId) =>
        eligible h l.val && s.lasers[l].available && s.boxFits l box x y && (s.engineOf l).isSome
      match (if ok p then some p else (List.finRange 12).find? ok) with
      | none => s.remeltRefused p x y 1
      | some l =>
        match s.freeContext, s.engineOf l with
        | some n, some e =>
          let c : Context :=
            { st := .ready, priority := s.armNat 0x5000 7, space := s.armNat 0x5000 6, homeEngine := s.rankOf e
              injected := true, listBase := s.armNat 0x5000 5, layer := s.layer.number, injectX := x, injectY := y
              readyAt := s.tick, injector := p.val
              engine := if e = 12 then 12 else 255 }
          let s := { s with contexts := assocPut n c s.contexts }
          (s.bump (0x5100 + p.val) 4).emit 0x5103 p.val [p.val, e.val, n, x, y]
        | _, _ => s.remeltRefused p x y 2

/-- A run ends (R133): an anomaly in progress is recorded (0x5102) and re-melt attempted. -/
def State.endRun (s : State) (p : LaserId) : State :=
  match s.lasers[p].anom with
  | none => s
  | some r =>
    let s := s.modLaser p fun l => { l with anom := none }
    if r.active then
      let e := (s.engineOf p).map (·.val)
      let s := s.emit 0x5102 p.val [p.val, e.getD 255, r.posX, r.posY, r.endX, r.endY, r.length, r.extreme]
      s.injectRemelt p r.posX r.posY
    else s

/-- A run that begins with a sample (R133). -/
def Sample.run (q : Sample) (low : Bool) (rise : Int) (v : Nat) : AnomRun :=
  { low := low, rise8 := rise, length := 1, posX := q.x, posY := q.y, endX := q.x, endY := q.y, extreme := v
    partId := q.partId, featureTag := q.featureTag, setPoint := q.setPoint, bandLow := q.bandLow, bandHigh := q.bandHigh }

/-- A run with one sample more. -/
def AnomRun.extend (r : AnomRun) (q : Sample) : AnomRun :=
  let r := { r with length := r.length + 1, endX := q.x, endY := q.y }
  if r.active then r
  else { r with partId := q.partId, featureTag := q.featureTag, setPoint := q.setPoint, bandLow := q.bandLow, bandHigh := q.bandHigh }

/-- A qualifying sample in the anomaly check (R133). -/
def State.anomalySample (s : State) (p : LaserId) (rise : Int) (v : Nat) (q : Sample) : State :=
  let side : Option Bool := if v < q.bandLow then some true else if q.bandHigh < v then some false else none
  let put := fun (r : AnomRun) => s.modLaser p fun l => { l with anom := some r }
  match side, s.lasers[p].anom with
  | none, none => s
  | none, some r => (put (r.extend q)).endRun p
  | some low, none => put (q.run low rise v)
  | some low, some r =>
    if low == r.low then put { r.extend q with extreme := if r.low then min r.extreme v else max r.extreme v }
    else if r.active then put (r.extend q)
    else put (q.run low rise v)

/-- A lane's counts of invalid, out-of-range and frozen samples, and of good ones since a loss (R146, R147). -/
def Lane.countSample (l : Lane) (x : LaneSample) (limit lo hi window freeze : Nat) : Lane :=
  let far := decide (window < (if l.freezeRef ≤ x.signal then x.signal - l.freezeRef else l.freezeRef - x.signal))
  let out := x.sat || decide (x.signal < lo) || decide (hi < x.signal)
  let l := { l with invalidRun := if x.valid then 0 else l.invalidRun + 1 }
  let l := if x.valid && x.gateOn then
      { l with
        rangeRun := if out then l.rangeRun + 1 else 0
        freezeRun := if l.freezeRun = 0 || far then 1 else l.freezeRun + 1
        freezeRef := if l.freezeRun = 0 || far then x.signal else l.freezeRef }
    else l
  let bad := decide (limit ≤ l.invalidRun) || decide (limit ≤ l.rangeRun) || decide (freeze ≤ l.freezeRun)
  { l with goodRun := if bad || !l.lost then 0 else if x.gateOn then l.goodRun + 1 else l.goodRun }

/-- Number of the first slot that starts at or after a sample instant plus 2,500 ns (R116). -/
def slotOf (at8 ga : Int) : Int := (at8 + 1600 - ga + 159) / 160

/-- The gate is off at a sample, or has risen since the run began: the run ends (R133). -/
def State.runEnded (s : State) (p : LaserId) (rise : Int) (gateOn : Bool) : Bool :=
  match s.lasers[p].anom with
  | some r => !gateOn || r.rise8 != rise
  | none => false

/-- The lane whose entries hold a lane's parameters: CL12 takes those of the lane it stands in for (R148). -/
def State.paramLane (s : State) (n : LaneId) : LaneId :=
  if n = 12 ∧ s.engines[12].st = .standin then
    match s.spare.standinFor with | some e => ⟨e.val, by have := e.isLt; omega⟩ | none => n
  else n

/-- A sample enters the lane of engine e: its counts for lost and frozen feedback (R146, R147). -/
def State.enterSample (s : State) (e : EngineId) (sm : LaneSample) : State :=
  let n : LaneId := ⟨e.val, by have := e.isLt; omega⟩
  let b := laneIx 0x580B (s.paramLane n)
  s.modLane n fun l => { l.countSample sm (s.nat b 1) (s.nat b 2) (s.nat b 3) (s.nat b 4) (s.nat b 5) with sample := some sm }

/-- SAMPLE_PAIR: the next pair of Q_MPS enters the lane of the engine routed to laser p (R117, R118), and is
checked for anomaly runs (R132, R133). While no engine is routed to the laser its pairs go to no lane (R115). -/
def execSamplePair (p : LaserId) (s : State) : Out :=
  match s.lasers[p].mpsQ, s.engineOf p with
  | _ :: _, none => .next (s.modLaser p fun l => { l with mpsQ := [] })
  | x :: t, some e =>
    let s := (((s.freeCredit 5 p.val).modLaser p fun l => { l with mpsQ := t })).startAnomaly p
    let ga := s.alignOf p
    let g := s.engines[e]
    let v := s.signalOf p x
    let sm : LaneSample :=
      { valid := x.valid, sat := x.saturated, signal := v, slot := slotOf x.at8 ga, gateOn := g.levelAt x.at8 }
    let s := s.enterSample e sm
    let s := if x.valid then (s.modLaser p fun l => { l with signal := v }).put (0x5100 + p.val) 6 v else s
    let rise := g.riseAt x.at8
    let s := if s.runEnded p rise sm.gateOn then s.endRun p else s
    match s.qualifies e ga x with
    | some q => .next (s.anomalySample p rise v q)
    | none => .next s
  | _, _ => .next s

/-- A run has reached AnomalyTime and is no anomaly yet (R133). -/
def State.anomalyDue (s : State) (p : LaserId) : Bool :=
  s.lasers[p].anom.any fun r => !r.active && decide (s.armNat 0x5000 2 ≤ r.length)

/-- ANOMALY_START: a run reaches AnomalyTime (R133). -/
def execAnomalyStart (p : LaserId) (s : State) : Out := .next (s.startAnomaly p)

end Sys2Proof.Machine
end

