-- ==== Sys2Proof/Machine/Spare.lean ====
section
/-!
DEFINITION. The spare channel (chapter 8): self-check failures, takeover, work re-queued, trims and hand-back.
-/
namespace Sys2Proof.Machine

/-- The lane paired with an engine. -/
def laneOf (e : EngineId) : LaneId := ⟨e.val, by have := e.isLt; omega⟩

/-- A self-check failure: FAULT until RESET, the gate off in the tick of detection (R172, R174). The status code
for it is that of a failed self-test. -/
def State.failEngine (s : State) (e : EngineId) (check : Nat) : State :=
  s.modEngine e fun g =>
    { g.gateOffAt (8 * s.tick) with
      st := .fault, cause := 0x0605, selfCheck := g.selfCheck ||| 2 ^ check, faultTick := s.tick, lookReqs := []
      wait := .none, readyTimer := none, forcedTimer := none, parkAtPoint := false }

/-- What an engine is left with when its resources have gone: counters, and the path and gate that lie behind it (R119). -/
def Engine.emptied (g : Engine) : Engine :=
  { ({} : Engine) with
    plan := g.plan, planEnd := g.planEnd, posX := g.posX, posY := g.posY, edges := g.edges, gate := g.gate
    lastRise8 := g.lastRise8, lastFall8 := g.lastFall8
    st := g.st, cause := g.cause, selfCheck := g.selfCheck, dupDeviation := g.dupDeviation, faultTick := g.faultTick
    routed := g.routed, lastDeposit := g.lastDeposit, setX := g.setX, setY := g.setY }

/-- Queues whose credit pools belong to an engine (Table 1.3): Q_FETCH, Q_BLOCK, Q_CLAIM, Q_LEDGER and Q_LOOK. -/
def enginePools : List Nat := [1, 2, 3, 7, 8]

/-- The resources of R176 go from engine a to engine b: block buffer, credit pools with what stands in their queues,
contexts, claims, pending lists, and the lane (R148). -/
def State.moveResources (s : State) (a b : EngineId) : State :=
  let g := s.engines[a]
  let old := s.engines[b]
  let s := s.modEngine b fun _ =>
    { g with
      st := old.st, cause := old.cause, routed := old.routed, selfCheck := old.selfCheck, dupDeviation := old.dupDeviation
      faultTick := old.faultTick, ledgerQ := old.ledgerQ ++ g.ledgerQ, lookReqs := [], checkpoints := [] }
  let s := s.modEngine a Engine.emptied
  let la := s.lanes[laneOf a]
  let s := s.modLane (laneOf b) fun _ => { la with lookQ := [], line := [], sample := none }
  { s with
    contexts := s.contexts.map fun (n, c) => if c.owner = a.val then (n, { c with engine := b.val }) else (n, c)
    claims := s.claims.map fun c => if c.engine = a.val then { c with engine := b.val } else c
    remainders := s.remainders.map fun r => if r.engine = a.val then { r with engine := b.val } else r
    fetched := s.fetched.map fun x => if x.1 = a then (b, x.2) else x
    freed := s.freed.map fun x => if enginePools.contains x.1 && x.2 == a.val then (x.1, b.val) else x
    faults := s.faults.map fun f => if f.master = 1 ∧ f.inst = a.val then { f with inst := b.val } else f
    faultWait := s.faultWait.map fun f => if f.master = 1 ∧ f.inst = a.val then { f with inst := b.val } else f }

/-- The block a checkpoint lies in goes back to the head of the buffer. -/
def Engine.backToBlock (g : Engine) (c : Checkpoint) : Engine :=
  if c.blockNo < g.blockNo then
    { g with buf := (match g.lastBlock with | some b => b :: g.buf | none => g.buf), blockNo := c.blockNo
             leaving := g.leaving.dropLast }
  else g

/-- The list entry of the block a checkpoint lies in is the current one again (R177). -/
def State.backTo (s : State) (e : EngineId) (c : Checkpoint) : State :=
  match s.engines[e].lastBlock with
  | some b => if c.blockNo < s.engines[e].blockNo then s.reopen b else s
  | none => s

/-- Words of the checkpoint's word that a completed phase has left behind (R177): a settle or a gate-off dwell goes
on for its remainder, so the engine stands at the word after it. -/
def Checkpoint.passed (c : Checkpoint) : Bool := !c.inUnit && (c.phase == .settle || c.phase == .dwellOff)

/-- An engine as a checkpoint leaves it, standing at (x, y) (R177): the word, the parameters in force, the group
and the stop point, with no path planned. -/
def Engine.restore (g : Engine) (c : Checkpoint) (x y : Int) : Engine :=
  let g := g.backToBlock c
  let off := if c.passed then c.wordOffset + 1 else c.wordOffset
  { g with
    wordOff := off, ppOffset := c.wordOffset, par := replayParams g.words off, group := c.area.group, seam := c.area.seam
    plan := [], frames := [], edges := [], gate := false, inSegment := false, segHasMark := false, gateSincePoint := false
    posX := x, posY := y, stopX := c.area.posX, stopY := c.area.posY, stopFraction := c.markFraction
    stopInUnit := c.inUnit, stopDwell := c.area.dwellRemaining, stopMarkX0 := c.markX0, stopMarkY0 := c.markY0
    backTo := some (c.area.posX, c.area.posY), wait := .none, seamDue := [], breakTo := c.breakTo, claimId := none, claimGranted := false }

/-- The remainder of a settle, mark delay or gate-off dwell runs out at the held position (R177). -/
def Engine.runOut (g : Engine) (c : Checkpoint) : Engine :=
  match c.phase with
  | .settle | .markDelay | .dwellOff =>
    if c.inUnit then g
    else { (g.plan1 (g.piece c.phase g.planEnd (c.phaseRemaining * upd))) with backTo := none }
  | _ => g

/-- Claims that CE12 has taken over stay held; a gate fall still to come does not release them (R176). -/
def State.keepClaims (s : State) (e : EngineId) : State :=
  { s with claims := s.claims.map fun c =>
      if c.engine = e.val ∧ c.granted ∧ (c.releaseAt.any fun t => decide (s.tick < t)) = true then { c with releaseAt := none } else c }

/-- The claim that CE12 holds for the unit in which it resumes (R176, R177). -/
def State.heldClaim (s : State) (e : EngineId) : Option Nat :=
  (s.claims.find? fun (c : Claim) => c.engine == e.val && c.granted && c.releaseAt.isNone && !c.held).map (·.id)

/-- A context of a failed engine goes on at its list's next entry; its blocks on chip are re-queued apart. -/
def Context.passOn (c : Context) (next : Nat) (last : Bool) : Context :=
  if c.st = .done ∨ c.st = .free ∨ c.st = .aborted then c
  else
    { c with
      st := if last then .loaded else .preempted, listIndex := next, wordOffset := 0, inUnit := false, area := none
      saveSlot := 255, kept := [], spilled := false, blockedCause := 0 }

/-- The blocks kept on chip for a context that its engine has left (R158, R186). -/
def Context.requeued (c : Context) (e : EngineId) : List Remainder :=
  match c.kept.filter fun b => !b.placeholder, c.area with
  | b :: t, some a =>
    { wholeRemainder e b with
      wordOffset := c.wordOffset, area := a, inUnit := c.inUnit, stopX := a.posX, stopY := a.posY
      markX0 := c.markX0, markY0 := c.markY0 } :: t.map (wholeRemainder e)
  | l, _ => l.map (wholeRemainder e)

/-- The blocks of a failed engine as remainders for any engine (R186): the current one from its checkpoint, the
others whole. -/
def Engine.requeued (g : Engine) (e : EngineId) : List Remainder :=
  let base := wholeRemainder e
  match g.buf.filter fun b => !b.placeholder with
  | [] => []
  | b :: t =>
    { base b with
      wordOffset := g.wordOff, area := g.area g.stopDwell, inUnit := g.stopInUnit, stopX := g.stopX, stopY := g.stopY
      markX0 := g.stopMarkX0, markY0 := g.stopMarkY0 } :: t.map base

/-- R186: the failed engine's claims end and its work goes to every eligible engine in service. -/
def State.requeueWork (s : State) (e : EngineId) (check : Option Checkpoint) : State :=
  let s := s.emit 0x3405 e.val [e.val, 0x0404, s.engines[12].st.code]
  let s := s.dropClaims e
  let s := { s with claims := s.claims.filter fun c => c.engine != e.val || c.granted }
  let s := { s with fetched := s.fetched.filter fun x => x.1 != e }
  let g := s.engines[e]
  let lastBlk := match g.buf.find? fun b => Machine.lastInLayer b.header && !b.stolen with | some _ => true | none => false
  -- list entries after the blocks on chip
  let kept := (s.contexts.filter fun x => x.2.owner == e.val && x.2.st != .loaded && !g.ctx.any fun k => k.val == x.1).flatMap fun x => x.2.requeued e
  let s := match check with | some c => s.backTo e c | none => s
  let pass := fun (x : Nat × Context) =>
    let run := g.ctx.any fun k => k.val == x.1
    if x.2.owner = e.val then (x.1, x.2.passOn (if run then s.nextEntry e x.1 x.2 else x.2.entryAt (if x.2.st = .loaded then 0 else x.2.kept.length)) (run && lastBlk)) else x
  let s := { s with contexts := s.contexts.map pass }
  let s : State := match check with
    | some c => s.modEngine e fun g => g.restore c g.posX g.posY
    | none =>
      -- an engine that has stopped stands at its stop point
      if g.stopInUnit then s
      else s.modEngine e fun g => { g with wordOff := g.ppOffset, par := replayParams g.words g.ppOffset, stopX := g.posX, stopY := g.posY }
  let rs := if s.inBuild then s.engines[e].requeued e ++ kept else []
  let own := s.remainders.map fun r =>
    if r.engine = e.val then { r with anyEngine := true, block := { r.block with words := openEnded r.block.words } } else r
  let s := { s with remainders := own ++ rs }
  let s := match s.engines[e].routed with | some p => if e = 12 then s.route p 255 else s | none => s
  ((s.modEngine e Engine.emptied).modEngine e fun g => { g with routed := if e = 12 then none else g.routed }).loseUnreachable

/-- The newest checkpoint of an engine at or before update k that passed the duplicate path's check and whose CRC and ECC
are good; `bad` names the updates of those that fail (R173, R177). -/
def State.goodCheckpoint (s : State) (e : EngineId) (k : Nat) (bad : List Nat) : Option Checkpoint :=
  newestCheckpoint (s.engines[e].checkpoints.filter fun c => !bad.contains c.update) k

/-- Steps 1 and 2 of R174 for engine n on laser p: CE12 takes the resources and restores the newest checkpoint at
or before the stop update (R177). -/
def State.takeOver (s : State) (n : EngineId) (p : LaserId) (check : Nat) (bad : List Nat) : State :=
  let was := s.eff n
  let k := ((8 * (s.tick : Int) - s.alignOf p) / 320).toNat
  let cp := s.goodCheckpoint n k bad
  let s := (s.postDeposit n p).failEngine n check
  let running := was == .running || was == .yielding
  let hx := s.lasers[p].frameX
  let hy := s.lasers[p].frameY
  match (if running then cp.isSome else true : Bool) with
  | false => s.requeueWork n none
  | true =>
    let s := match cp with | some c => if running then s.backTo n c else s | none => s
    let s := (s.keepClaims n).moveResources n 12
    let s := match cp with
      | some c => if running then s.modEngine 12 fun g => g.restore c hx hy else s
      | none => s
    let id := if s.engines[12].stopInUnit && running then s.heldClaim 12 else none
    let s := s.modEngine 12 fun g =>
      { g with claimId := id, claimGranted := id.isSome, lastDeposit := k, frames := [], edges := [], gate := false }
    let sub := if was = .yielding then .running else was
    { s with spare := { s.spare with
        standinFor := some n, forTrim := false, subState := sub, takeoverAt := some ((s.tick + 40 + 39) / 40 * 40)
        heldX := hx, heldY := hy, restored := if running then cp else none, check := check, failTick := s.tick } }

/-- A self-trim of CE12 is abandoned at a takeover (Table 8.4, R209). -/
def State.abandonTrim (s : State) : State :=
  if s.engines[12].st = .trim then
    ({ s with spare := { s.spare with trimming := none } } : State).emit 0x3404 12 [12, 2]
      |>.engineTo 12 .spare 0
  else s

/-- CE12 is free to take over: in SPARE, or in its own trim (R174, Table 8.4). -/
def State.spareFree (s : State) : Bool :=
  (s.engines[12].st == .spare || s.engines[12].st == .trim) && s.spare.takeoverAt.isNone

/-- A failure that CE12 does not take over (R186); CE12 failing in the takeover gap gives up its laser too. -/
def State.failAlone (s : State) (e : EngineId) (check : Nat) (bad : List Nat) : State :=
  match s.engines[e].st with
  | .fault => s
  | st =>
    let p := s.engines[e].routed
    let k := match p with | some p => ((8 * (s.tick : Int) - s.alignOf p) / 320).toNat | none => 0
    let cp := s.goodCheckpoint e k bad
    let running := s.eff e == .running || s.eff e == .yielding || s.eff e == .stalled
    let s := (match p with | some p => s.postDeposit e p | none => s).failEngine e check
    let s := if e = 12 then { s with spare := { s.spare with takeoverAt := none } } else s
    let s := (s.abortOn p 2)
    match st with
    | .spare | .trim =>
      let s := { s with spare := { s.spare with trimming := if s.spare.trimming = some e then none else s.spare.trimming } }
      if e = 12 && st == .spare && !s.engines[12].buf.isEmpty then s.requeueWork e none else s
    | _ => s.requeueWork e (if running then cp else none)

/-- CE12 may take the engine over when it is the lowest one of the tick (R174, R179). -/
def State.mayTake (s : State) (e : EngineId) : Bool :=
  e != 12 && s.engines[e].routed.isSome && s.engines[e].st != .fault && s.engines[e].st != .trim

/-- Engines that fail in one tick: `first`, the lowest routed one, is taken over when CE12 is free, the others are handled
under R186 (R174, R179). -/
def State.failMany (s : State) (first : Option EngineId) (bad : List Nat) : List (EngineId × Fin 6) → State
  | [] => s
  | (e, c) :: t =>
    let s := match s.engines[e].routed with
      | some p =>
        if first = some e && s.spareFree then (s.abandonTrim.abortOn (some p) 2).takeOver e p c.val bad
        else s.failAlone e c.val bad
      | none => s.failAlone e c.val bad
    s.failMany first bad t

/-- TAKEOVER: what the self-checks of this tick find (R171 to R179, R186): engines that fail, engines whose state ECC
corrected a single-bit error, which is counted only (R172), and the updates of checkpoints whose CRC or ECC fails (R177).
An error of the arbiter or of the ledger's control leads to SAFE; a fault of the gate-off path is found by the test at the
next layer start (R185). -/
def execTakeover (failures : List (EngineId × Fin 6)) (found : SelfChecks) (bad : List Nat) (s : State) : Out :=
  let order := (List.finRange 13).filterMap fun i => failures.find? fun x => x.1 == i
  let s := found.corrected.foldl (fun s e => s.bumpE e 0x3006 2) s
  let first := (order.find? fun x => s.mayTake x.1).map (·.1)
  let s := s.failMany first bad order
  let s := if order.isEmpty then s else s.applyEdges.noteFault 1
  let s := if found.path then { s with spare := { s.spare with pathFault := true } } else s
  .next (if found.control then s.enterSafe 0x0605 .outsideContinuity else s)

/-- Requests for the even updates of CE12's first 500 (R178). -/
def State.postAhead (s : State) (k : Nat) : State :=
  let reqs := (List.range 250).filterMap fun i =>
    let u := k + k % 2 + 2 * i
    (s.engines[12].ahead (upd * u)).map fun (x, y) =>
      let c := s.cellOf x y
      ({ update := u, posted := s.tick + i, cellI := c.1, cellJ := c.2 } : LookReq)
  { s.modEngine 12 fun g => { g with lookReqs := reqs } with spare := { s.spare with aheadTo := k + k % 2 + 498 } }

/-- STANDIN_ROUTE: at P_m the crossbar routes the laser to CE12, which enters STANDIN (R174 step 3, R177, R178). -/
def execStandinRoute (s : State) : Out :=
  match s.spare.takeoverAt, s.spare.standinFor with
  | some t, some n =>
    if s.tick < t then .next s
    else
      match s.engines[n].routed with
      | none => .next { s with spare := { s.spare with takeoverAt := none } }
      | some p =>
        let k := s.update + 1 + leadUpdates
        let s := ((s.route p 12).modEngine n fun g => { g with routed := none }).modEngine 12 fun g =>
          { g with st := .standin, routed := some p, genUpdate := k - 1, genFrom := k, planEnd := upd * k, everSet := true }
        let s := match s.spare.restored with
          | some c => s.modEngine 12 fun g => { (g.runOut c) with execStart := upd * (k - c.execUpdates), waitUpdates := 0, firstJumpDone := c.execUpdates != 0 }
          | none => s
        let s := if s.modState = .building && s.eff 12 == .running && s.armNat 0x5200 6 ≠ 0 then s.postAhead k else s
        let s := s.modLaser p fun l => { l with resync := true }
        let gap := s.tick - s.spare.failTick
        let g := s.engines[12]
        let s := { s with spare := { s.spare with takeoverAt := none } }
        let s := (s.bump 0x3C10 3).put 0x3C10 4 gap
        .next (s.emit 0x3401 n.val
          [n.val, p.val, s.spare.check, s.spare.failTick, (s.spare.restored.map fun c => (c.update : Int)).getD (-1),
           bedUnit g.stopX, bedUnit g.stopY, gap])
  | _, _ => .next s

/-- A write of TrimRequest (R181). -/
def State.writeTrim (s : State) (q : Sess) (v : Byte) : State :=
  s.host q 0x3C10 5 v.toNat fun s =>
    if v = 0xFF then accepted ({ s with spare := { s.spare with trimPending := none } }.put 0x3C10 5 255)
    else if h : v.toNat < 13 then
      if s.engines[12].st ≠ .spare || s.spare.takeoverAt.isSome then refused s 0x0404
      else if s.spare.trimPending.isSome || s.spare.trimming.isSome then refused s 0x0301
      else accepted ({ s with spare := { s.spare with trimPending := some ⟨v.toNat, h⟩ } }.put 0x3C10 5 v.toNat)
    else refused s 0x0201

/-- TRIM_REQUEST (R181). -/
def execTrimRequest (q : Sess) (v : Byte) (s : State) : Out := .next (s.writeTrim q v)

/-- TRIM_WITHDRAW: 0xFF withdraws a request that has not started (R181). -/
def execTrimWithdraw (q : Sess) (v : Byte) (s : State) : Out := .next (s.writeTrim q v)

/-- A build is armed (R181). -/
def State.buildArmed (s : State) : Bool := s.modState == .armed || s.inBuild

/-- TRIM_START: the requested engine is in IDLE or ARMED and CE12 in SPARE; it waits for a procedure on the engine's
laser (R181, R195, R209). -/
def execTrimStart (s : State) : Out :=
  match s.spare.trimPending with
  | none => .next s
  | some n =>
    let free := s.engines[12].st == .spare && s.spare.takeoverAt.isNone
    let ready := n == 12 || s.engines[n].st == .idle || s.engines[n].st == .armed
    let busy := n != 12 && s.cal.running && s.cal.laser == n.val
    if !free || !ready || busy then .next s
    else
      let s := ({ s with spare := { s.spare with trimPending := none, trimming := some n, trimDone := false } }.put 0x3C10 5 255)
      let s := s.emit 0x3403 n.val [n.val]
      if n = 12 then .next (s.engineTo 12 .trim 0)
      else
        let was := s.engines[n].st
        let p := s.engines[n].routed
        let s := match p with | some l => s.route l (if s.buildArmed then 12 else 255) | none => s
        let s := if s.buildArmed then
            let s := (s.moveResources n 12).modEngine 12 fun g => { g with st := .standin, routed := p, layerDone := true }
            { s with spare := { s.spare with standinFor := some n, forTrim := true, subState := was } }
          else s
        .next ((s.engineTo n .trim 0).modEngine n fun g => { g with routed := none })

/-- The laser that engine n serves when it is routed (Table 1.1: CEn and laser n). -/
def ownLaser (n : EngineId) : Option LaserId := if h : n.val < 12 then some ⟨n.val, h⟩ else none

/-- The module record takes new delay codes for an engine and is committed (R209, R192). -/
def CalRec.withCodes (r : CalRec) (n : EngineId) (codes : List Byte) : CalRec :=
  let all := r.phaseCode ++ List.replicate (104 - r.phaseCode.length) 0
  { r with phaseCode := all.take (8 * n.val) ++ (codes ++ List.replicate 8 0).take 8 ++ all.drop (8 * n.val + 8) }

/-- CE12 as it stands when it has nothing to serve. -/
def State.freeSpare (s : State) : State :=
  (s.modEngine 12 fun g => { g.emptied with st := .spare, cause := 0, routed := none }) |> fun (t : State) =>
    { t with spare := { t.spare with standinFor := none, forTrim := false, subState := .idle, restored := none, trimDone := false } }

/-- Laser p goes back from CE12 to engine n (R182): n takes the resources back. -/
def State.handBackTo (s : State) (n : EngineId) (p : LaserId) : State :=
  let st := if s.buildArmed && s.spare.subState != .idle then EngState.armed else .idle
  let s := ((s.route p n.val).moveResources 12 n).modEngine n fun g => { g with st := st, cause := 0, routed := some p }
  (s.freeSpare.modLaser p fun l => { l with resync := true }).emit 0x3402 n.val [n.val, p.val]

/-- TRIM_END: pass or fail of the trim (R209); the engine leaves TRIM unless CE12 still serves its laser (R182). -/
def execTrimEnd (pass : Bool) (codes : List Byte) (s : State) : Out :=
  match s.spare.trimming with
  | none => .next s
  | some n =>
    let s := { s with spare := { s.spare with trimming := none, trimDone := true } }
    let s : State := match pass, s.records[12] with
      | true, some r =>
        let r' := r.withCodes n codes
        { s with records := s.records.set 12 (some r'), cal := { s.cal with committing := s.cal.committing ++ [(12, 0xFE, r')] } }
      | _, _ => s
    let s := s.emit 0x3404 n.val [n.val, if pass then 0 else 1]
    if n = 12 then .next (s.engineTo 12 .spare 0)
    else if s.engines[n].st ≠ .trim then .next s
    else
      let back := fun (s : State) =>
        ((match ownLaser n with | some p => s.route p n.val | none => s).modEngine n fun g => { g with routed := ownLaser n, st := if s.buildArmed then .armed else .idle, cause := 0, layerDone := true })
      if s.spare.standinFor = some n then
        if s.engines[12].st = .fault then
          -- CE12 failed meanwhile: laser, contexts and pending list go back to the engine (R182)
          let s := { s with
            contexts := s.contexts.map fun (k, c) => if c.engine = 12 then (k, { c with engine := n.val }) else (k, c)
            spare := { s.spare with standinFor := none } }
          .next ((back s).emit 0x3402 n.val [n.val, (ownLaser n |>.map (·.val)).getD 255])
        else .next s
      else .next (back s)

/-- HAND_BACK: after the trim, at the first instant at which CE12 would be in ARMED, or at DISARM or ABORT (R182). -/
def execHandBack (s : State) : Out :=
  match s.spare.standinFor, s.engines[12].routed with
  | some n, some p =>
    let due := s.spare.forTrim && s.spare.trimDone && s.engines[12].st == .standin && s.engines[n].st == .trim
    let rest := s.spare.subState == .armed || s.spare.subState == .idle || !s.buildArmed
    if due && rest then .next (s.handBackTo n p) else .next s
  | _, _ => .next s

end Sys2Proof.Machine
end

