-- ==== Sys2Proof/Machine/Clover.lean ====
section
/-!
DEFINITION. The Clover control engine (chapter 6): chains of eight stages, the correction, modes and hand-over, lost
feedback, general-lane profiles, test signals and capture.
-/
namespace Sys2Proof.Machine

/-- A store to a 16-bit value (R139): round to nearest, ties towards +∞, and saturate; true when it saturates. -/
def store16 (acc : Int) : Int × Bool :=
  let v := (acc + 2 ^ 14) / 2 ^ 15
  if v < -32768 then (-32768, true) else if 32767 < v then (32767, true) else (v, false)

/-- Saturation of a signal to 16 bits. -/
def sat16 (v : Int) : Int := clampInt v (-32768) 32767

/-- How many of some values saturate as they are stored to 16 bits (R139). -/
def satsOf (l : List Int) : Nat := (l.filter fun v => sat16 v != v).length

/-- A product with an accumulator value, brought back to accumulator precision. -/
def scaled (coef acc : Int) (bits : Nat) : Int := roundDiv (coef * acc) (2 ^ bits)

/-- What a chain run is given (R141). -/
structure ChainIn where
  input : Int
  y : Int
  r : Int
  f : Int
  /-- the sample is valid, not saturated and within its window (SELECT 2) -/
  good : Bool
  /-- sign of the excess by which c was clamped in the previous run; 0 none -/
  clamped : Int
  slewing : Bool
  deriving DecidableEq, Repr

def Stage.par (g : Stage) (i : Nat) : Int := g.p.getD (i - 1) 0

/-- Output of a stage of an earlier or the same run (R141). -/
def stageOut (chain : List Stage) (before : List StageState) (now : List Int) (reading s : Nat) : Int :=
  if (chain.getD s {}).op = 0 then 0
  else if s < reading then now.getD s 0 else (before.getD s {}).out

/-- The source of an input (R141): `last` is the output of the nearest preceding stage that is not skipped. -/
def source (x : ChainIn) (chain : List Stage) (before : List StageState) (now : List Int) (i : Nat) (last : Int)
    (code : Nat) : Int :=
  match code with
  | 0 => last
  | 1 => x.input
  | 2 => x.y
  | 3 => x.r
  | 4 => x.f
  | 5 => 0
  | c => if 8 ≤ c then stageOut chain before now i (c - 8) else 0

/-- PID (Table 6.2) with the anti-windup of R142. -/
def runPid (g : Stage) (x : ChainIn) (a : Int) (t : StageState) : StageState × Int :=
  let sh := 2 ^ (g.par 10).toNat
  let d := scaled (g.par 4) t.deriv 15 + g.par 3 * (a - t.x1)
  let u := sh * (g.par 1 * a + t.integ + d)
  let y := clampInt u (g.par 6 * 2 ^ 15) (g.par 7 * 2 ^ 15)
  let ki := g.par 2 * a
  let ki := if x.slewing || (ki * x.clamped > 0) then 0 else ki
  let back := roundDiv (g.par 5 * (y - u)) (2 ^ 15 * sh.toNat)
  let i := clampInt (t.integ + ki + back) (g.par 8 * 2 ^ 15) (g.par 9 * 2 ^ 15)
  ({ t with x1 := a, integ := i, deriv := d }, y)

/-- LUT16 (Table 6.2). -/
def runLut (g : Stage) (a : Int) : Int :=
  let k := ((a + 32768) / 4369).toNat
  let m := min k 14
  let lo := g.par (m + 1)
  let hi := g.par (m + 2)
  lo + roundDiv ((hi - lo) * (a + 32768 - 4369 * m)) 4369

/-- Keep a filter memory within the range of the output it remembers (R139). -/
def memory (acc : Int) : Int := clampInt acc (-(2 ^ 30)) (2 ^ 30 - 1)

/-- One stage (Table 6.2): its new state and output; true when a store saturates. -/
def runStage (g : Stage) (x : ChainIn) (a b : Int) (t : StageState) : StageState × Bool :=
  let done := fun (t : StageState) (acc : Int) => let r := store16 acc; ({ t with out := r.1 }, r.2)
  match g.op with
  | 1 => done t (g.par 1 * a * 2 ^ (g.par 2).toNat)
  | 2 => done t (g.par 1 * a + g.par 2 * b)
  | 3 => let (t, y) := runPid g x a t; done t y
  | 4 =>
    let acc := 2 * (g.par 1 * a + g.par 2 * t.x1 + g.par 3 * t.x2) - scaled (g.par 4) t.y1 14 - scaled (g.par 5) t.y2 14
    done { t with x2 := t.x1, x1 := a, y2 := t.y1, y1 := memory acc } acc
  | 5 =>
    let acc := g.par 1 * a + g.par 2 * t.x1 - scaled (g.par 3) t.y1 15
    done { t with x1 := a, y1 := memory acc } acc
  | 6 => ({ t with out := clampInt a (g.par 1) (g.par 2) }, false)
  | 7 => ({ t with out := t.out + clampInt (a - t.out) (-(g.par 2)) (g.par 1) }, false)
  | 8 => ({ t with out := runLut g a }, false)
  | 9 =>
    let w := g.par 1
    ({ t with out := if a > w then a - w else if a < -w then a + w else 0 }, false)
  | 10 =>
    ({ t with out := if g.par 1 = 0 then min a b else if g.par 1 = 1 then max a b else if x.good then a else b }, false)
  | _ => (t, false)

/-- A chain run: new states, output B, and how many stores saturated (R141). `pre` changes the state of a stage
before it runs, given its input. -/
def runChain (x : ChainIn) (chain : List Stage) (states : List StageState) (pre : Nat → Int → StageState → StageState) :
    List StageState × Int × Nat :=
  let step := fun (acc : List StageState × List Int × Int × Nat) (i : Nat) =>
    let (ts, outs, last, sats) := acc
    let g := chain.getD i {}
    let t := states.getD i {}
    if g.op = 0 then (ts ++ [t], outs ++ [0], last, sats)
    else
      let a := source x chain states outs i last g.srcA
      let b := source x chain states outs i last g.srcB
      let (t, s) := runStage g x a b (pre i a t)
      (ts ++ [t], outs ++ [t.out], t.out, sats + b2n s)
  let (ts, _, last, sats) := (List.range 8).foldl step ([], [], x.input, 0)
  (ts, (if (chain.take 8).all fun g => g.op == 0 then 0 else last), sats)

/-- Bumpless entry to CLOSED (R144): the PID stage's x[n−1] and integrator. -/
def preload (g : Stage) (bStar a : Int) (t : StageState) : StageState :=
  let d := scaled (g.par 4) t.deriv 15
  let i := roundDiv (bStar * 2 ^ 15) (2 ^ (g.par 10).toNat) - g.par 1 * a - d
  { t with x1 := a, integ := clampInt i (g.par 8 * 2 ^ 15) (g.par 9 * 2 ^ 15) }

/-- sin(2πφ/2^32) scaled by 2^48. -/
def sinPhase (phi : Nat) : Int :=
  let r := phi % 2 ^ 30
  let at' := fun (k : Nat) => let x : Int := (k * 1768559438007110 / 2 ^ 32 : Nat); taylor 16 (x * x / trigOne) x 2 x
  match phi / 2 ^ 30 % 4 with
  | 0 => at' r
  | 1 => at' (2 ^ 30 - r)
  | 2 => -at' r
  | _ => -at' (2 ^ 30 - r)

/-- Feedback taps of the PRBS register (R150). -/
def prbsTaps (n : Nat) : List Nat :=
  match n with
  | 7 => [7, 6] | 8 => [8, 6, 5, 4] | 9 => [9, 5] | 10 => [10, 7] | 11 => [11, 9] | 12 => [12, 11, 10, 4]
  | 13 => [13, 12, 11, 8] | 14 => [14, 13, 12, 2] | _ => [15, 14]

/-- One shift of the register. -/
def prbsShift (n r : Nat) : Nat :=
  let fb := (prbsTaps n).foldl (fun x t => x != bitOf r (t - 1)) false
  (r * 2 + b2n fb) % 2 ^ n

/-- Value of an injection entry of a lane. -/
def State.injPar (s : State) (n : LaneId) (sub : Nat) : Int := s.val (laneIx 0x580C n) sub

/-- The injection has reached its end (R150): Duration runs, or the end of a sweep. -/
def State.injOver (s : State) (n : LaneId) : Bool :=
  let j := s.lanes[n].inj
  let dur := (s.injPar n 0x0B).toNat
  (dur != 0 && decide (dur ≤ j.runs)) || (s.injPar n 1 == 2 && decide ((s.injPar n 7).toNat ≤ j.runs))

/-- States in which a lane may inject (R150). -/
def State.injAllowed (s : State) (n : LaneId) : Bool :=
  s.modState == .service || (s.modState == .ready && decide (13 ≤ n.val))

/-- The module is still in the state in which an injection was started (R150). -/
def State.injHolds (s : State) (n : LaneId) : Bool := s.injAllowed n && s.lanes[n].inj.since == s.entryTick

/-- The test signal of this run, not yet stored to 16 bits, and the injection after it (R150). -/
def State.injSignal (s : State) (n : LaneId) : Int × Injection :=
  let j := s.lanes[n].inj
  if !j.running || s.injOver n || !s.injHolds n then (0, j)
  else
    let amp := s.injPar n 3
    let off := s.injPar n 4
    let f1 := (s.injPar n 5).toNat
    let wave := off + roundDiv (amp * sinPhase j.phase) trigOne
    let j' := { j with runs := j.runs + 1 }
    match (s.injPar n 1).toNat with
    | 1 => (wave, { j' with phase := (j.phase + f1) % 2 ^ 32 })
    | 2 =>
      let t := max 1 (s.injPar n 7).toNat
      let inc := (f1 : Int) + ((s.injPar n 6) - f1) * j.runs / t
      (wave, { j' with phase := unsigned 32 (j.phase + inc) })
    | 3 =>
      let len := (s.injPar n 8).toNat
      let v := if bitOf j.prbs (len - 1) then off + amp else off - amp
      let hold := max 1 (s.injPar n 9).toNat
      (v, { j' with prbs := if (j.runs + 1) % hold = 0 then prbsShift len j.prbs else j.prbs })
    | 4 => (if j.runs < (s.injPar n 0x0A).toNat then off else off + amp, j')
    | _ => (0, j')

/-- Feedforward of a look-ahead Code (R131), from the curve in force at ARM. -/
def State.feedforward (s : State) (code : Option Nat) : Int :=
  match code with
  | none => 0
  | some c =>
    let cp := fun (m : Nat) => (s.armInt 0x5210 m)
    let vp := fun (m : Nat) => (s.armInt 0x5211 m)
    match (List.range 15).find? fun i => decide (cp (i + 1) ≤ (c : Int)) && decide ((c : Int) < cp (i + 2)) with
    | some i =>
      let m := i + 1
      vp m + roundDiv ((vp (m + 1) - vp m) * ((c : Int) - cp m)) (cp (m + 1) - cp m).toNat
    | none => if (c : Int) < cp 1 then vp 1 else vp 16

/-- A lane's first run in a new effective mode leaves the window, so that it slews (R144). -/
def slewBegins (c0 cIn window : Int) : Bool := !(decide (-window ≤ cIn - c0) && decide (cIn - c0 ≤ window))

/-- A change of effective mode or a slew under way gives the correction of this run (R144): c, and whether the lane
slews on. -/
def slewTo (c0 cIn window slew : Int) (first : Bool) (slewing : Bool) : Int × Bool :=
  let diff := cIn - c0
  if (if first then slewBegins c0 cIn window else slewing) then
    if decide (-slew ≤ diff) && decide (diff ≤ slew) then (cIn, false) else (c0 + clampInt diff (-slew) slew, true)
  else (cIn, false)

/-- Modes as reported (0x5800.01). -/
def LoopMode.code : LoopMode → Nat
  | .open => 1 | .ff => 2 | .closed => 3

def loopOf (m : Nat) : LoopMode := match m with | 2 => .ff | 3 => .closed | _ => .open

/-- The committed chain takes effect at the period start (R142). -/
def Lane.startPeriod (l : Lane) : Lane :=
  match l.next with
  | none => l
  | some (c, h) => { l with chain := c, handoverStage := h, next := none, states := List.replicate 8 {} }

/-- One run of a lane in an effective mode (R140, R143 to R145): its quantities e, y, r, F and j, whether its chain may
run and its sample is good, and how many stores to 16 bits have saturated so far.-/
structure RunIn where
  e : Int
  y : Int
  r : Int
  f : Int
  j : Int
  point : Int
  mode : LoopMode
  valid : Bool
  good : Bool
  sats : Nat
  limit : Int
  window : Int
  slew : Int
  deriving DecidableEq, Repr

/-- B, the stage states and saturating stores of a run; the chain runs in CLOSED only, and a melt-pool lane's with a valid
sample only (R140). `slewing`: a hand-over slews in this run. -/
def Lane.chainRun (l : Lane) (x : RunIn) (enter slewing : Bool) : List StageState × Int × Nat :=
  if x.mode = .closed && x.valid then
    let inp : ChainIn :=
      { input := if x.point = 1 then sat16 (x.e + x.j) else x.e, y := x.y, r := x.r, f := x.f, good := x.good
        clamped := l.clamped, slewing := slewing }
    let pre := fun (i : Nat) (a : Int) (t : StageState) =>
      if enter && decide (i = l.handoverStage) && (l.chain.getD i {}).op == 3 then preload (l.chain.getD i {}) (l.c - x.f) a t else t
    runChain inp l.chain l.states pre
  else (l.states, l.b, 0)

/-- The correction before hand-over, not limited (R140). -/
def RunIn.sum (x : RunIn) (b : Int) : Int :=
  let j := if x.point = 2 then x.j else 0
  match x.mode with
  | .closed => x.f + b + j
  | .ff => x.f + j
  | .open => j

/-- The correction limited, before hand-over (R140). -/
def RunIn.limited (x : RunIn) (b : Int) : Int := clampInt (x.sum b) (-x.limit) x.limit

/-- A run of a lane: the lane after it, and the stores that saturated. B does not depend on the slew, which only keeps Ki·x
out of the integrator (R142), so the slew is found first. -/
def Lane.run (l : Lane) (x : RunIn) : Lane × Nat :=
  let enter := x.mode != l.effective
  let (c, slews) := slewTo l.c (x.limited (l.chainRun x enter false).2.1) x.window x.slew enter l.slewing
  let (ts, b, sats) := l.chainRun x enter slews
  let v := x.sum b
  ({ l with
      states := ts, b := b, c := c, slewing := slews, effective := x.mode, y := x.y, r := x.r, feedF := x.f
      clamped := if v > x.limit then 1 else if v < -x.limit then -1 else 0 },
    sats + x.sats + (if x.mode = .closed && x.valid && decide (x.point = 1) then satsOf [x.e + x.j] else 0))

/-- Record one run in the capture unit (R151). -/
def State.captureRun (s : State) (n : LaneId) (e j p : Int) : State :=
  let cap := s.capture
  if s.nat 0x5F00 1 ≠ n.val || (cap.state != 1 && cap.state != 2) then s
  else if cap.skip ≠ 0 then { s with capture := { cap with state := 2, skip := cap.skip - 1 } }
  else if s.nat 0x5F00 7 ≤ cap.count then s
  else
    let l := s.lanes[n]
    let pick := fun (c : Nat) =>
      match c with
      | 0 => l.r | 1 => l.y | 2 => e | 3 => l.feedF | 4 => l.b | 5 => l.c | 6 => j | 7 => p
      | c => (l.states.getD (c - 8) {}).out
    { s with capture :=
        { state := 2, count := cap.count + 1, skip := s.nat 0x5F00 6 - 1
          data := cap.data ++ [pick (s.nat 0x5F00 2), pick (s.nat 0x5F00 3), pick (s.nat 0x5F00 4), pick (s.nat 0x5F00 5)] } }

/-- A lane after its run: saturations counted, a slew that starts recorded (R144), the run captured. -/
def State.laneRan (s : State) (n : LaneId) (x : RunIn) (l : Lane) (sats : Nat) : State :=
  let old := s.lanes[n]
  let s := s.modLane n fun _ => { l with ranAt := some s.tick }
  let s := if sats = 0 then s else s.count (laneIx 0x5800 n) 5 sats
  let v := x.limited l.b
  if x.mode != old.effective && slewBegins old.c v x.window then
    (s.bump (laneIx 0x5800 n) 7).emit 0x5403 n.val [n.val, old.c, v, old.effective.code, x.mode.code]
  else s

/-- The condition under which a lane's feedback is lost, with its cause (R146). -/
def State.lossCause (s : State) (n : LaneId) : Option Nat :=
  let l := s.lanes[n]
  let b := laneIx 0x580B (s.paramLane n)
  if s.nat b 1 ≤ l.invalidRun then some 0
  else if s.nat b 1 ≤ l.rangeRun then some 1
  else if s.nat b 5 ≤ l.freezeRun then some 2
  else none

/-- Loss of feedback (R146): record 0x5401 with its cause. -/
def State.loseFeedback (s : State) (n : LaneId) (source cause : Nat) : State :=
  if s.lanes[n].lost then s
  else
    ((s.modLane n fun l => { l with lost := true, goodRun := 0 }).bump (laneIx 0x5800 n) 6).emit 0x5401 n.val
      [n.val, source, cause]

/-- Results move from Q_LOOK into the look-ahead line of 256 entries (R130). -/
def Lane.takeLook (l : Lane) : Lane :=
  { l with line := (l.line ++ l.lookQ).drop ((l.line ++ l.lookQ).length - 256), lookQ := [] }

/-- The look-ahead result for a slot (R130): one that is late counts as NONE and is counted. -/
def State.lookFor (s : State) (e : EngineId) (p : LaserId) (slot : Int) : State × Option Nat :=
  let u := (slot / 2 + 1).toNat
  let u := u - u % 2
  match s.lanes[laneOf e].line.find? fun x => x.1 == u with
  | some (_, r) => (s, r)
  | none =>
    if s.engines[e].lookReqs.any fun r => r.update == u then
      ((s.modEngine e fun g => { g with lookReqs := g.lookReqs.filter fun r => r.update != u }).bump (0x5100 + p.val) 7, none)
    else (s, none)

/-- Results move from Q_LOOK into the lane's line, and their credits come back (R15, R130). -/
def State.takeLook (s : State) (e : EngineId) : State :=
  let s := { s with freed := s.lanes[laneOf e].lookQ.map (fun _ => (8, e.val)) ++ s.freed }
  s.modLane (laneOf e) fun l => l.startPeriod.takeLook

/-- With Q_MPS empty when the lane is due, in its sample period, an invalid pair takes the place of the one that is missing:
it serves the next slot (R19, R117). -/
def State.missingPair (s : State) (e : EngineId) (p : LaserId) : State :=
  let l := s.lanes[laneOf e]
  if l.sample.isSome || s.tick % 20 ≠ 0 || l.ranAt == some s.tick || !linksRun s.modState then s
  else
    (s.bump (0x5100 + p.val) 5).enterSample e { slot := max (l.lastSlot + 1) (s.slotNow p + 1) }

/-- Put a lane's value into Q_PWR, or let it wait at the lane for a credit (R14, Table 1.3). -/
def State.pushPower (s : State) (p : LaserId) (slot : Int) (pw : Nat) : State :=
  let s := if 4 ≤ s.lasers[p].pwrQ.length + s.freedOf 6 p.val then s.waited 6 else s
  s.modLaser p fun l => { l with pwrQ := l.pwrQ ++ [(slot, pw)] }

/-- One run of the melt-pool lane of engine e on laser p with a sample (R138 to R147). CorrLimit to AutoReturn act as soon as
they are written: R152 stages "chain and parameter entries", which the model takes to be StageOp, HandoverStage and
StageParam (DEDUCED, row 106). -/
def State.meltRun (s : State) (e : EngineId) (p : LaserId) (sm : LaneSample) : State :=
  let n := laneOf e
  let g := s.engines[e]
  let q := s.paramLane n
  let piece := motionPiece g.plan (sm.slot.toNat * (upd / 2))
  let sp := (piece.map (·.setPoint)).getD g.par.setPoint
  let md := (piece.map (·.mode)).getD g.par.mode
  let s : State := match s.lossCause n with
    | some c => s.loseFeedback n p.val c
    | none => s
  let l := s.lanes[n]
  let prog := if md = 0 then l.programmed else loopOf md
  let mode := if prog = .closed ∧ (l.lost ∨ s.lasers[p].loopReady = false) then .ff else prog
  let (s, look) := s.lookFor e p sm.slot
  let f := if s.armNat 0x5200 6 = 0 then 0 else s.feedforward look
  let (jv, inj) := s.injSignal n
  let j := sat16 jv
  let point := s.injPar n 2
  -- an invalid pair carries no signal: y keeps its last value
  let y : Int := if sm.valid then (sm.signal / 2 : Nat) else l.y
  let rv : Int := (sp / 2 : Nat) + (if point = 0 then j else 0)
  let r := sat16 rv
  let k := laneIx 0x580B q
  let x : RunIn :=
    { e := sat16 (r - y), y := y, r := r, f := f, j := j, point := point, mode := mode, valid := sm.valid
      good := sm.valid && !sm.sat && decide (s.nat k 2 ≤ sm.signal) && decide (sm.signal ≤ s.nat k 3)
      sats := satsOf [jv, rv, r - y]
      limit := s.val (laneIx 0x580A q) 1, window := s.val (laneIx 0x580A q) 2, slew := s.val (laneIx 0x580A q) 3 }
  let (l', sats) := ({ l with programmed := prog, setPoint := sp, inj := inj } : Lane).run x
  let pp := g.programmed sm.slot
  let pw := min 65535 ((pp : Int) + roundDiv ((pp : Int) * l'.c) 32768).toNat
  let s := s.laneRan n x { l' with lastP := pw } sats
  (s.captureRun n x.e j pw).pushPower p sm.slot pw

/-- LANE_RUN: the melt-pool lane of engine e takes its sample, decides its mode, and writes the corrected power of
the sample's slot into Q_PWR (R138 to R147). A slot whose gate is off throughout runs no update (R143). -/
def execLaneRun (e : EngineId) (s : State) : Out :=
  let n := laneOf e
  match s.engines[e].routed with
  | some p =>
    let s := s.missingPair e p
    match s.lanes[n].sample with
    | none => .next s
    | some sm =>
      let s := (s.takeLook e).modLane n fun l => { l with sample := none, ranAt := some s.tick, lastSlot := sm.slot }
      let g := s.engines[e]
      let a := 160 * sm.slot + s.alignOf p
      if g.st = .fault || g.onTime a (a + 160) ≤ 0 then .next s else .next (s.meltRun e p sm)
  | none => .next s

/-- FEEDBACK_RETURNED: with AutoReturn 1, after 4,000 gate-on samples or 50 axis runs of good feedback, the lane
returns to its programmed mode (R147). -/
def execFeedbackReturned (n : LaneId) (s : State) : Out :=
  let l := s.lanes[n]
  let need := if n.val < 13 then 4000 else 50
  if !l.lost || s.nat (laneIx 0x580B (s.paramLane n)) 6 ≠ 1 || decide (l.goodRun < need) || (s.lossCause n).isSome
      || (decide (13 ≤ n.val) && decide (n.val ≤ 16)) then .next s
  else .next ((s.modLane n fun l => { l with lost := false, goodRun := 0 }).emit 0x5402 n.val [n.val, l.programmed.code])

/-- The axis of an axis lane. -/
def axisOf (n : LaneId) : Option AxisId := if h : 13 ≤ n.val ∧ n.val ≤ 16 then some ⟨n.val - 13, by omega⟩ else none

/-- Parameters common to the runs of axis and general lanes. Their chains run whatever the sample (R140 stops a melt-pool
lane's only); `good` decides SELECT (Table 6.2). -/
def State.slowIn (s : State) (n : LaneId) (e y r f j : Int) (mode : LoopMode) (good : Bool) (sats : Nat) : RunIn :=
  { e := e, y := y, r := r, f := f, j := j, point := s.injPar n 2, mode := mode, valid := true, good := good, sats := sats
    limit := s.val (laneIx 0x580A n) 1, window := s.val (laneIx 0x580A n) 2, slew := s.val (laneIx 0x580A n) 3 }

/-- Finish a slow run: lane, injection, capture. -/
def State.slowRun (s : State) (n : LaneId) (x : RunIn) (inj : Injection) : State :=
  let l := s.lanes[n]
  let (l', sats) := ({ l with inj := inj } : Lane).run x
  (s.laneRan n x l' sats).captureRun n x.e x.j l'.c

/-- Run of an axis lane (R149, R254). The spec gives the lane's input and feedforward; set-point and measured value are the
commanded and the actual position on a scale that it leaves open (Config.axisScale, row 3). -/
def State.axisRun (s : State) (n : LaneId) (a : AxisId) : State :=
  let s := s.modLane n fun l => l.startPeriod
  let x := s.axes[a]
  let limit := max 1 (s.nat (axisIx 0x6005 a) 0x10)
  let vmax := max 1 x.limV
  let e := sat16 (roundDiv (32768 * (bedUnit x.pos - x.actual)) limit)
  let f := sat16 (roundDiv (32768 * x.vel) (vmax * 65536))
  let closed := s.nat (axisIx 0x6003 a) 0x0D == 1
  let l := s.lanes[n]
  let prog := if closed then LoopMode.closed else .open
  let mode := if closed then (if l.lost then LoopMode.ff else .closed) else .open
  let (jv, inj) := s.injSignal n
  let j := sat16 jv
  let add := if s.injPar n 2 = 0 then j else 0
  let r := sat16 (Config.axisScale a.val (bedUnit x.pos))
  let y := sat16 (Config.axisScale a.val x.actual)
  let good := x.invalidRun == 0
  let s := s.modLane n fun l => { l with
    programmed := prog, goodRun := if !l.lost || !good || bitOf x.flags 5 || bitOf x.flags 6 then 0 else l.goodRun + 1 }
  let s := s.slowRun n (s.slowIn n (sat16 (e + add)) y (sat16 (r + add)) f j mode good (satsOf [jv, e + add, r + add])) inj
  s.modAxis a fun x => { x with laneOut := s.lanes[n].c }

/-- Set-point of a general lane's profile at a tick (R149): from the set-point at the start through its points. -/
def State.profileAt (s : State) (n : LaneId) (start : Nat) (from' : Int) : Int :=
  let ms := fun (i : Nat) => s.nat (laneIx 0x580D n) i
  let v := fun (i : Nat) => s.val (laneIx 0x580E n) i
  let len := s.nat (laneIx 0x580F n) 2
  let t := s.tick - start
  let rec go : Nat → Nat → Nat → Int → Int
    | 0, _, _, v0 => v0
    | f + 1, i, t0, v0 =>
      let t1 := ms i * 80000
      if t < t1 then v0 + roundDiv ((v i - v0) * ((t : Int) - t0)) (t1 - t0) else go f (i + 1) t1 (v i)
  go (min len 16) 1 0 from'

/-- A general lane drives the analogue output that GenOutput names (R149). -/
def State.driveAout (s : State) (n : LaneId) : State :=
  match (List.finRange 4).find? fun (i : Fin 4) => i.val == s.nat (laneIx 0x5810 n) 2 with
  | some i => { s with aout := s.aout.set i s.lanes[n].output }
  | none => s

/-- Run of a general lane (R149): its input, its set-point from the profile, its output. It closes its loop when
GenInput names an input. -/
def State.generalRun (s : State) (n : LaneId) : State :=
  let s := s.modLane n fun l => l.startPeriod
  let l := s.lanes[n]
  let has := s.nat (laneIx 0x5810 n) 1 < 4
  let y := if has then l.input else 0
  let (jv, inj) := s.injSignal n
  let j := sat16 jv
  let r := match l.profStart with | some t => s.profileAt n t l.profFrom | none => l.profFrom
  let rv := r + if s.injPar n 2 = 0 then j else 0
  let r' := sat16 rv
  let mode := if has then LoopMode.closed else .open
  let s := s.modLane n fun l => { l with programmed := mode }
  let s := s.slowRun n (s.slowIn n (sat16 (r' - y)) y r' 0 j mode true (satsOf [jv, rv, r' - y])) inj
  (s.modLane n fun l => { l with r := r, output := l.c }).driveAout n

/-- The lane that the slow slot of the sample period at a tick serves (R138). -/
def slowLane (tick : Nat) : Option LaneId :=
  match tick / 20 % 80 with
  | 0 => some 13 | 20 => some 14 | 40 => some 15 | 60 => some 16
  | 10 => some 17 | 30 => some 18 | 50 => some 19
  | _ => none

/-- The slow slot of the present sample period serves a lane that has not yet run in it (R138). -/
def State.slotOpen (s : State) (n : LaneId) : Bool :=
  slowLane s.tick == some n && s.lanes[n].ranAt.all fun t => decide (t < s.tick / 20 * 20)

/-- AXIS_LANE_RUN: an axis or general lane runs in its slow slot (R138, R149); `input` is the analogue input of a
general lane, Q15. -/
def execAxisLaneRun (n : LaneId) (input : BitVec 16) (s : State) : Out :=
  let s := if 17 ≤ n.val then s.modLane n fun l => { l with input := input.toInt } else s
  if !s.slotOpen n then .next s
  else
    match axisOf n with
    | some a => .next (s.axisRun n a)
    | none => .next (s.generalRun n)

/-- MACs of an opcode (Table 6.2). -/
def stageMacs (op : Nat) : Nat := [0, 1, 2, 6, 5, 3, 0, 0, 1, 0, 0].getD op 0

/-- The staged chain of a lane (Table 6.3). -/
def State.stagedChain (s : State) (n : LaneId) : List Stage :=
  (List.range 8).map fun i =>
    let w := s.nat (laneIx 0x5801 n) (i + 1)
    { op := field w 15 12, srcA := field w 11 8, srcB := field w 7 4
      p := (List.range 16).map fun k => s.val (laneIx (0x5802 + i) n) (k + 1) }

/-- A StageOp is valid (R141). -/
def stageOpValid (w : Nat) : Bool :=
  let src := fun (c : Nat) => c != 6 && c != 7
  field w 15 12 ≤ 10 && src (field w 11 8) && src (field w 7 4) && field w 3 0 == 0

/-- HandoverStage names a PID stage followed by LIMIT, RATE or skipped stages only, or 0xFF (R142). -/
def handoverValid (chain : List Stage) (h : Nat) : Bool :=
  h == 255 || (decide (h < 8) && (chain.getD h {}).op == 3
    && (chain.drop (h + 1)).all fun g => g.op == 0 || g.op == 6 || g.op == 7)

/-- Chain budget of a lane (Table 6.1). -/
def chainBudget (n : LaneId) : Nat := if n.val < 13 then 20 else 60

/-- Commit a lane's staged chain (R142). -/
def State.commitChain (s : State) (n : LaneId) : State :=
  let c := s.stagedChain n
  let m := (c.map fun g => stageMacs g.op).sum
  (s.put (laneIx 0x5801 n) 0x0A m).modLane n fun l => { l with next := some (c, s.nat (laneIx 0x5801 n) 0x0B) }

/-- CHAIN_COMMIT: a write of 1 to ChainCommit (R142). -/
def execChainCommit (q : Sess) (n : LaneId) (v : Byte) (s : State) : Out :=
  .next <| s.host q (laneIx 0x5801 n) 9 v.toNat fun s =>
    let c := s.stagedChain n
    if s.modState = .building then refused s 0x0105
    else if v ≠ 1 then refused s 0x0201
    else if !((List.range 8).all fun i => stageOpValid (s.nat (laneIx 0x5801 n) (i + 1))) then refused s 0x0201
    else if chainBudget n < (c.map fun g => stageMacs g.op).sum then refused s 0x0203
    else if !handoverValid c (s.nat (laneIx 0x5801 n) 0x0B) then refused s 0x0203
    else accepted (s.commitChain n)

/-- Injection starts; the capture unit of that lane starts with it (R150, R151). -/
def State.startInjection (s : State) (n : LaneId) : State :=
  let len := (s.injPar n 8).toNat
  let s := s.modLane n fun l => { l with inj := { running := true, runs := 0, phase := 0, prbs := 2 ^ len - 1, since := s.entryTick } }
  if s.nat 0x5F00 1 = n.val then { s with capture := { state := 1 } } else s

/-- An injection ends (R150): record 0x5404. -/
def State.endInjection (s : State) (n : LaneId) : State :=
  let j := s.lanes[n].inj
  (s.modLane n fun l => { l with inj := {} }).emit 0x5404 n.val [n.val, s.injPar n 1, j.runs]

/-- INJ_START: a write to InjStart (R150); a write of 0 ends an injection whose Duration is 0. -/
def execInjStart (q : Sess) (n : LaneId) (v : Byte) (s : State) : Out :=
  .next <| s.host q (laneIx 0x580C n) 0x0C v.toNat fun s =>
    if !s.injAllowed n then refused s 0x0105
    else if v.toNat > 1 then refused s 0x0201
    else if v = 1 then accepted (if s.injPar n 1 = 0 then s else s.startInjection n)
    else if s.lanes[n].inj.running && s.injPar n 0x0B == 0 then accepted (s.endInjection n)
    else accepted s

/-- INJECTION_END: Duration runs, the end of a sweep, or the state left in which it was started (R150). -/
def execInjectionEnd (n : LaneId) (s : State) : Out :=
  if s.lanes[n].inj.running && (s.injOver n || !s.injHolds n) then .next (s.endInjection n) else .next s

/-- CAP_START: a write of 1 to CapStart arms the capture, which starts with the lane's next run; 0 stops it
(R151). -/
def execCapStart (q : Sess) (v : Byte) (s : State) : Out :=
  .next <| s.host q 0x5F00 8 v.toNat fun s =>
    if v.toNat > 1 then refused s 0x0201
    else if v = 1 then accepted { s with capture := { state := 1 } }
    else accepted { s with capture := if s.capture.state = 3 then s.capture else {} }

/-- CAPTURE_DONE: CapLength samples are recorded (R151): record 0x5405. -/
def execCaptureDone (s : State) : Out :=
  if s.capture.state = 2 && decide (s.nat 0x5F00 7 ≤ s.capture.count) then
    .next (({ s with capture := { s.capture with state := 3 } } : State).emit 0x5405 255 [s.nat 0x5F00 1, s.capture.count])
  else .next s

/-- A general lane's profile starts from point 1, ramping from the current set-point (R149). -/
def State.startProfile (s : State) (n : LaneId) : State :=
  s.modLane n fun l => { l with profStart := some s.tick, profFrom := l.r }

/-- PROF_START: a write of 1 to ProfStart (R149). -/
def execProfStart (q : Sess) (n : LaneId) (v : Byte) (s : State) : Out :=
  .next <| s.host q (laneIx 0x580F n) 1 v.toNat fun s =>
    if v.toNat > 1 then refused s 0x0201
    else if v = 1 then accepted (s.startProfile n) else accepted s

end Sys2Proof.Machine
end

