-- ==== Sys2Proof/Machine/Axes.lean ====
section
/-!
DEFINITION. The profile generator of the axes (R240 to R242) in exact rational arithmetic with square roots to
2^−40: plans of constant jerk from any state, and the state of a plan at a tick; stops, and the axis commands
(R238, R239).
-/
namespace Sys2Proof.Machine

/-- Position, velocity and acceleration. -/
structure Pva where
  p : Rat
  v : Rat
  a : Rat
  deriving DecidableEq

/-- Constant jerk j for t seconds. -/
def Pva.step (x : Pva) (t j : Rat) : Pva :=
  { p := x.p + t * (x.v + t * (x.a / 2 + t * j / 6)), v := x.v + t * (x.a + t * j / 2), a := x.a + t * j }

/-- Square root to 2^−40. -/
def ratSqrt (x : Rat) : Rat := ((isqrtFrom 100 (x * 2 ^ 80).floor.toNat 0 : Nat) : Rat) / 2 ^ 40

def ratAbs (x : Rat) : Rat := if x < 0 then -x else x

/-- Durations and jerks that bring (v, a) to velocity w at rest in acceleration, |a| ≤ A at jerk J (R240). -/
def velPlan (v a w acc j : Rat) : List (Rat × Rat) :=
  -- an acceleration beyond A is first brought to A
  let beyond := acc < ratAbs a
  let sg : Rat := if a < 0 then -1 else 1
  let t0 := (ratAbs a - acc) / j
  let v1 := if beyond then v + t0 * (a - sg * t0 * j / 2) else v
  let a1 := if beyond then sg * acc else a
  let dir : Rat := if v1 + a1 * ratAbs a1 / (2 * j) ≤ w then 1 else -1
  let dv := dir * (w - v1)
  let b := dir * a1
  let peak := ratSqrt (j * dv + b * b / 2)
  let rest :=
    if peak ≤ acc then [((peak - b) / j, dir * j), (peak / j, -dir * j)]
    else [((acc - b) / j, dir * j), ((dv - (2 * acc * acc - b * b) / (2 * j)) / acc, 0), (acc / j, -dir * j)]
  (if beyond then (t0, -sg * j) :: rest else rest).filter fun x => decide (0 < x.1)

/-- The state a plan leads to. -/
def runPlan (x : Pva) (l : List (Rat × Rat)) : Pva := l.foldl (fun y s => y.step s.1 s.2) x

/-- Displacement of a path from (v, a) by way of velocity w to rest. -/
def viaDistance (v a w acc j : Rat) : Rat :=
  (runPlan { p := 0, v := v, a := a } (velPlan v a w acc j ++ velPlan w 0 0 acc j)).p

/-- Bisection for the velocity by way of which the displacement is d. -/
def viaBisect (v a d acc j : Rat) : Nat → Rat → Rat → Rat × Rat
  | 0, lo, hi => (lo, hi)
  | n + 1, lo, hi =>
    let mid := (lo + hi) / 2
    if viaDistance v a mid acc j ≤ d then viaBisect v a d acc j n mid hi else viaBisect v a d acc j n lo mid

/-- The plan to a rest d counts away (R240). -/
def posPlan (d v a vel acc j : Rat) : List (Rat × Rat) :=
  let build := fun (w : Rat) =>
    let left := d - viaDistance v a w acc j
    let cruise := if w = 0 then 0 else left / w
    velPlan v a w acc j ++ (if 0 < cruise then [(cruise, 0)] else []) ++ velPlan w 0 0 acc j
  if d = 0 ∧ v = 0 ∧ a = 0 then []
  else if viaDistance v a vel acc j ≤ d then build vel
  else if d ≤ viaDistance v a (-vel) acc j then build (-vel)
  else
    let (lo, hi) := viaBisect v a d acc j 48 (-vel) vel
    build (if lo < 0 then hi else lo)

/-- A plan as the state keeps it. -/
def storePlan (l : List (Rat × Rat)) : List (Nat × Int) :=
  l.map fun (t, j) => ((nearest (t * 2 ^ 40)).toNat, nearest (j * 65536))

/-- The state of a kept plan t seconds after its start; true when it has ended. -/
def walkPlan : Pva → List (Nat × Int) → Rat → Pva × Bool
  | x, [], t => (if 0 < t then x.step t 0 else x, true)
  | x, (d, j) :: r, t =>
    let dur := (d : Rat) / 2 ^ 40
    -- durations are kept to 2^−40 s, so an end within 2^−32 s has come
    if t + 1 / 2 ^ 32 < dur then (x.step t ((j : Rat) / 65536), false) else walkPlan (x.step dur ((j : Rat) / 65536)) r (t - dur)

/-- State of an axis's plan at a tick: along the path of a coordinated move, else in counts. -/
def Axis.planState (a : Axis) (tick : Nat) : Pva × Bool :=
  let x : Pva := { p := (a.planP : Rat) / 65536, v := (a.planV : Rat) / 65536, a := (a.planA : Rat) / 65536 }
  let (y, fin) := walkPlan x a.plan (((tick - a.planAt : Nat) : Rat) / 80000000)
  if !fin then (y, false)
  else
    match a.motive with
    | .target p => ({ p := (p : Rat) / 65536, v := 0, a := 0 }, true)
    | .jog _ => ({ y with v := (a.planW : Rat) / 65536, a := 0 }, true)
    | .halt | .rest =>
      -- standing where the stop ended
      let z := (walkPlan x a.plan (((a.plan.map (·.1)).sum : Nat) / (2 ^ 40 : Rat))).1
      ({ p := z.p, v := 0, a := 0 }, true)

/-- Position, velocity and acceleration taken from the plan at a tick (R240, R242). -/
def Axis.advance (a : Axis) (tick : Nat) : Axis :=
  match a.st with
  | .moving | .homing | .stopping =>
    let (x, fin) := a.planState tick
    let scale : Rat := if a.coordMask = 0 ∨ a.coordLen = 0 then 1 else (a.coordDelta : Rat) / a.coordLen
    let pos := if a.coordMask = 0 then nearest (x.p * 65536) else a.coordFrom + nearest (x.p * scale * 65536)
    { a with
      pos := pos, vel := nearest (x.v * scale * 65536), acc := nearest (x.a * scale * 65536)
      profileEnded := fin && (match a.motive with | .jog _ => false | _ => true) }
  | _ => a

/-- Limits of a profile: V, A, J, and A, J of a stop. -/
structure Limits where
  v : Rat
  a : Rat
  j : Rat
  sa : Rat
  sj : Rat

/-- An axis's own limits. -/
def State.ownLimits (s : State) (a : AxisId) : Limits :=
  let x := s.axes[a]
  { v := x.limV, a := x.limA, j := (x.limJ : Rat) * 1000
    sa := max 1 x.stopA, sj := (max 1 x.stopJ : Nat) * 1000 }

def minRat (x y : Rat) : Rat := if x ≤ y then x else y

/-- Limits along the path of a coordinated move, in counts of its longest displacement (R242). -/
def State.limitsOf (s : State) (a : AxisId) : Limits :=
  let x := s.axes[a]
  if x.coordMask = 0 ∨ x.coordLen = 0 then s.ownLimits a
  else
    let part := fun (i : AxisId) =>
      let d := ratAbs ((s.axes[i].coordDelta : Rat) / x.coordLen)
      let l := s.ownLimits i
      if bitOf x.coordMask i.val && decide (0 < d) then
        some ({ v := l.v / d, a := l.a / d, j := l.j / d, sa := l.sa / d, sj := l.sj / d } : Limits)
      else none
    match (List.finRange 4).filterMap part with
    | [] => s.ownLimits a
    | l :: r => r.foldl (fun m l => { v := minRat m.v l.v, a := minRat m.a l.a, j := minRat m.j l.j, sa := minRat m.sa l.sa,
                                      sj := minRat m.sj l.sj }) l

/-- The end velocity of a jog within VelLimit, 2^−16 count/s (R240). -/
def jogSpeed (m : Motive) (v : Rat) : Int :=
  match m with
  | .jog w => clampInt w (-(nearest (v * 65536))) (nearest (v * 65536))
  | _ => 0

/-- Plan an axis from a state towards what it is to do (R240). -/
def State.planFrom (s : State) (a : AxisId) (y : Pva) : State :=
  let l := s.limitsOf a
  let w := jogSpeed s.axes[a].motive l.v
  let plan := match s.axes[a].motive with
    | .rest => []
    | .target p => posPlan ((p : Rat) / 65536 - y.p) y.v y.a l.v l.a l.j
    | .jog _ => velPlan y.v y.a ((w : Rat) / 65536) l.a l.j
    | .halt => velPlan y.v y.a 0 l.sa l.sj
  s.modAxis a fun x =>
    { x with plan := storePlan plan, planAt := s.tick, planP := nearest (y.p * 65536), planV := nearest (y.v * 65536)
             planA := nearest (y.a * 65536), planW := w, replan := false, profileEnded := false }

/-- The state an axis itself is in. -/
def Axis.own (x : Axis) : Pva := { p := (x.pos : Rat) / 65536, v := (x.vel : Rat) / 65536, a := (x.acc : Rat) / 65536 }

/-- Plan an axis anew from its present state, on its own or along its path (R240, R242). -/
def State.planAxis (s : State) (a : AxisId) : State :=
  let x := s.axes[a]
  s.planFrom a (if x.coordMask = 0 then (x.advance s.tick).own else (x.planState s.tick).1)

/-- Axes that move together with an axis: itself, or those of its coordinated move (R242) that have taken no command of
their own since. -/
def State.coordGroup (s : State) (a : AxisId) : List AxisId :=
  let m := s.axes[a].coordMask
  if m = 0 then [a] else (List.finRange 4).filter fun i => bitOf m i.val && s.axes[i].coordMask == m

/-- StopAccel and StopJerk of the axes of a group are taken for a stop that begins; those of one under way stay (R241). -/
def State.latchStops (s : State) (a : AxisId) : State :=
  (s.coordGroup a).foldl (fun s i => s.modAxis i fun x =>
    if x.st == .stopping && !x.replan then x
    else { x with stopA := s.nat (axisIx 0x6002 i) 4, stopJ := s.nat (axisIx 0x6002 i) 5 }) s

/-- Set or clear a flag of 0x6000.02. -/
def Axis.flag (x : Axis) (i : Nat) (on : Bool) : Axis :=
  { x with flags := if on then x.flags ||| 2 ^ i else if bitOf x.flags i then x.flags - 2 ^ i else x.flags }

/-- Start a profile of its own in an axis (R239, R240). -/
def State.startAxis (s : State) (a : AxisId) (st : AxisState) (m : Motive) : State :=
  let s := s.modAxis a fun x =>
    ({ x.advance s.tick with st := st, motive := m, coordMask := 0, inPosSince := none } : Axis).flag 1 false
  s.planFrom a s.axes[a].own

/-- The new motive of an axis that keeps its path: a stop (R242, R258). -/
def State.haltAxis (s : State) (a : AxisId) (fault : Bool) (cause : Nat) : State :=
  let s := s.latchStops a
  match s.axes[a].st with
  | .moving | .homing | .stopping =>
    let y := if s.axes[a].coordMask = 0 then (s.axes[a].advance s.tick).own else (s.axes[a].planState s.tick).1
    (s.modAxis a fun x =>
      { x.advance s.tick with st := .stopping, motive := .halt, stopFault := x.stopFault || fault
                              stopCause := if fault then cause else x.stopCause }).planFrom a y
  | _ =>
    (s.modAxis a fun x =>
      { x with st := .stopping, motive := .halt, stopFault := fault, stopCause := cause, coordMask := 0, outstanding := 0 }).planFrom a
        s.axes[a].own

end Sys2Proof.Machine
end

