-- ==== Sys2Proof/Machine/AxisCmd.lean ====
section
/-!
DEFINITION. Axis commands and stops (R238, R239, R242, R255 to R259): what each command of Table 11.2 does, fault stops,
homing passes, and the end of a stop.
-/
namespace Sys2Proof.Machine

/-- Module states in which a command is accepted (R259). -/
def axisServed (m : ModState) (code : Nat) : Bool :=
  match m with
  | .ready | .armed | .building | .paused | .service => true
  | .safe => code == 2 || code == 6 || code == 9
  | _ => false

/-- States in which a command is accepted (Table 11.2). -/
def axisAccepts (code : Nat) (st : AxisState) : Bool :=
  match code with
  | 1 => st == .disabled
  | 2 => st == .standstill || st == .fault
  | 3 | 4 | 5 => st == .standstill || st == .moving
  | 6 => st == .moving || st == .homing || st == .slaved
  | 9 => st == .fault
  | _ => st == .standstill

/-- A switch counts as active: its debounced level under its polarity, or chatter (R255). -/
def State.switchActive (s : State) (a : AxisId) (i : Fin 3) : Bool :=
  let x := s.axes[a]
  (x.swLevel.getLsbD i.val != bitOf (s.nat (axisIx 0x6007 a) 1) i.val) || x.swChatter.getLsbD i.val

/-- A direction of travel points into an active limit switch (R256). -/
def State.intoLimit (s : State) (a : AxisId) (dir : Int) : Bool :=
  (decide (0 < dir) && s.switchActive a 0) || (decide (dir < 0) && s.switchActive a 1)

/-- MoveTarget of an axis in 2^−16 counts. -/
def State.moveTarget (s : State) (a : AxisId) : Int := s.val (axisIx 0x6001 a) 2 * 65536

/-- Direction of travel that a move command asks for. -/
def State.moveDir (s : State) (a : AxisId) (code : Nat) : Int :=
  match code with
  | 3 | 8 => s.moveTarget a - s.axes[a].pos
  | 4 => s.moveTarget a
  | 5 => s.val (axisIx 0x6001 a) 3
  | _ => 0

/-- The first reason to refuse a command on an axis (R239). -/
def State.axisRefusal (s : State) (a : AxisId) (code : Nat) : Option Nat :=
  let x := s.axes[a]
  if s.modState = .building ∧ s.nat (axisIx 0x6008 a) 1 ≠ 0 then some 0x0302
  else if !axisAccepts code x.st then some 0x0301
  else if s.nat (axisIx 0x6003 a) 1 = 0 then some 0x0203
  else if code = 7 ∧ s.nat (axisIx 0x6007 a) 5 = 8 ∧ s.nat (axisIx 0x6003 a) 1 ≠ 2 then some 0x0203
  else if (code = 3 ∨ code = 8) ∧ !bitOf x.flags 0 then some 0x0307
  else if s.intoLimit a (s.moveDir a code) then some 0x0308
  else none

/-- The lane of an axis. -/
def axisLane (a : AxisId) : LaneId := ⟨13 + a.val, by have := a.isLt; omega⟩

/-- A lost axis lane may return at a new move (R147): with AutoReturn 1 after 50 good runs, with AutoReturn 0 once the layer
has ended (DEDUCED, row 106). -/
def State.mayReturn (s : State) (n : LaneId) : Bool :=
  s.lanes[n].lost && if s.nat (laneIx 0x580B n) 6 = 1 then decide (50 ≤ s.lanes[n].goodRun) else !s.layer.running

/-- A move is accepted: LIMIT_DEFERRED clears, a lost lane returns (R147, R241), a new JerkLimit is in force. -/
def State.newMove (s : State) (a : AxisId) : State :=
  let s := s.modAxis a fun x => ({ x with limJ := s.nat (axisIx 0x6002 a) 3 } : Axis).flag 2 false
  if s.mayReturn (axisLane a) then
    (s.modLane (axisLane a) fun l => { l with lost := false, goodRun := 0 }).emit 0x5402 (axisLane a).val
      [(axisLane a).val, (s.lanes[axisLane a].programmed).code]
  else s

/-- Latched flags (Table 11.5). -/
def latchedFlags : List Nat := [3, 4, 8, 9, 10, 14]

/-- Start a coordinated move over the axes of a mask (R242). -/
def State.startCoord (s : State) (mask : Nat) : State :=
  let axes := (List.finRange 4).filter fun i => bitOf mask i.val
  let delta := fun (s : State) (i : AxisId) => s.moveTarget i - s.axes[i].pos
  let len := axes.foldl (fun m i => max m (delta s i).natAbs) 0
  let s := axes.foldl (fun s i =>
    (s.newMove i).modAxis i fun x =>
      ({ x with st := .moving, motive := .target len, coordMask := mask, coordFrom := x.pos, coordDelta := delta s i
                coordLen := len, inPosSince := none } : Axis).flag 1 false) s
  axes.foldl (fun s i => s.planFrom i { p := 0, v := 0, a := 0 }) s

/-- Direction of a homing pass, and its switch: 0 LIM_P, 1 LIM_N, 2 HOME; the level that ends it (Table 11.4). -/
def homeSeek (mode pass : Nat) : Int × Option (Fin 3 × Bool) :=
  match mode, pass with
  | 1, 1 => (-1, some (1, true)) | 1, _ => (1, some (1, false))
  | 2, 1 => (1, some (0, true)) | 2, _ => (-1, some (0, false))
  | 3, 1 => (-1, some (2, true)) | 3, _ => (1, some (2, false))
  | 4, 1 => (1, some (2, true)) | 4, _ => (-1, some (2, false))
  | 7, 1 => (-1, some (2, true)) | 7, _ => (1, some (2, false))
  | 6, _ => (1, none)
  | _, _ => (-1, none)

/-- Homing fails (R257): LastResult, record 0x6103. -/
def State.failHoming (s : State) (a : AxisId) : State :=
  if s.axes[a].homeTimer.isNone then s
  else
    let s := (s.modAxis a fun x => { x with homeTimer := none }).put (axisIx 0x6000 a) 7 0x0606
    s.emit 0x6103 a.val [a.val, s.axes[a].homeMode, 0x0606, bedUnit s.axes[a].pos]

/-- A fault of a layer-moving axis in BUILDING takes the module to SAFE (R243); in SAFE it is one more cause (R391). -/
def State.layerAxisFault (s : State) (a : AxisId) : State :=
  if (s.modState = .building ∨ s.modState = .safe) ∧ s.nat (axisIx 0x6008 a) 1 ≠ 0 then s.enterSafe 0x0606 (.layerAxis a) else s

/-- A fault stop (R258), of every axis of a coordinated move (R242). Causes of record 0x6101: 0 limit, 1 following,
2 stall, 3 chatter, 4 homing, 5 step-in limit. -/
def State.faultStop (s : State) (a : AxisId) (cause : Nat) : State :=
  match s.axes[a].st with
  | .disabled | .enabling | .fault => s
  | _ =>
    let s := if s.axes[a].st = .homing then s.failHoming a else s
    let grp := s.coordGroup a
    let s := grp.foldl (fun s i => s.haltAxis i true cause) s
    grp.foldl (fun s i => s.layerAxisFault i) s

/-- Start a homing pass; a limit that it does not seek and that is active in its direction stops it (R257). -/
def State.startPass (s : State) (a : AxisId) (pass : Nat) : State :=
  let x := s.axes[a]
  let speed : Int := if pass = 1 then s.nat (axisIx 0x6007 a) 6 else s.nat (axisIx 0x6007 a) 7
  let s := s.startAxis a .homing (.jog ((homeSeek x.homeMode pass).1 * speed * 65536))
  let s := s.modAxis a fun x => { x with homePass := pass, homeReleased := false }
  let (dir, seek) := homeSeek x.homeMode pass
  let sought := fun (i : Fin 3) => seek.any fun y => y.1 == i
  if (decide (0 < dir) && s.switchActive a 0 && !sought 0) || (decide (dir < 0) && s.switchActive a 1 && !sought 1) then
    s.faultStop a 0
  else s

/-- HOME (R257): pass 1 or, where the mode has none or its limit is already active, pass 2. -/
def State.startHoming (s : State) (a : AxisId) : State :=
  let mode := s.nat (axisIx 0x6007 a) 5
  let s := (s.newMove a).modAxis a fun x =>
    { x with homeMode := mode, homeTimer := some (s.tick + s.nat (axisIx 0x6007 a) 9 * 80000000), stallRun := 0 }
  let skip := mode == 5 || mode == 6 || mode == 8 || (mode == 1 && s.switchActive a 1) || (mode == 2 && s.switchActive a 0)
  s.startPass a (if skip then 2 else 1)

/-- Positions are renamed so that the commanded position changes by d (2^−16 counts): SET_POSITION, homing. -/
def Axis.shift (x : Axis) (d : Int) : Axis :=
  { x with
    pos := x.pos + d, planP := if x.coordMask = 0 then x.planP + d else x.planP, coordFrom := x.coordFrom + d, outPos := x.outPos + d
    motive := match x.motive with | .target p => if x.coordMask = 0 then .target (p + d) else .target p | m => m
    actual := x.actual + bedUnit d, actOffset := x.actOffset + bedUnit d }

/-- What an accepted command does (Table 11.2). -/
def State.axisAct (s : State) (a : AxisId) (code mask : Nat) : State :=
  match code with
  | 1 =>
    let b := msTicks (s.nat (axisIx 0x6003 a) 0x0C)
    (s.overloadClear (16 + a.val)).modAxis a fun x =>
      { x with st := .enabling, encPwrOff := false, enaOn := true, brakeAt := some (s.tick + b), doneAt := some (s.tick + 2 * b), enaOffAt := none }
  | 2 =>
    s.modAxis a fun x =>
      { x with st := .disabled, brakeOn := true, brakeOverload := false, brakeAt := none, doneAt := none
               enaOffAt := some (s.tick + msTicks (s.nat (axisIx 0x6003 a) 0x0C)) }
  | 3 => (s.newMove a).startAxis a .moving (.target (s.moveTarget a))
  | 4 => (s.newMove a).startAxis a .moving (.target ((s.axes[a].advance s.tick).pos + s.moveTarget a))
  | 5 => (s.newMove a).startAxis a .moving (.jog (s.val (axisIx 0x6001 a) 3 * 65536))
  | 6 =>
    (s.coordGroup a).foldl (fun s i => (s.haltAxis i false 0).modAxis i fun x => { x with homeTimer := none, outstanding := 0 }) s
  | 7 => s.startHoming a
  | 8 => s.startCoord mask
  | 9 =>
    s.modAxis a fun x => { (latchedFlags.foldl (fun (x : Axis) i => x.flag i false) x) with st := .standstill, stopFault := false, stallRun := 0 }
  | 10 =>
    s.modAxis a fun x => { x with st := .slaved, outstanding := 0, emitFrom := 0, lastStep := none, stepInterval := 800000 }
  | _ =>
    let d := s.moveTarget a - s.axes[a].pos
    s.modAxis a fun x =>
      ({ x.shift d with actual := bedUnit (x.pos + d), actOffset := x.actOffset + (bedUnit (x.pos + d) - x.actual) } : Axis).flag 0 true

/-- A write of MoveCommand (R239). The state of the module is checked before the value (R278). -/
def State.axisWrite (s : State) (q : Sess) (a : AxisId) (code mask : Nat) : State :=
  s.host q (axisIx 0x6001 a) 1 (code * 256 + mask) fun s =>
    let axes := if code = 8 then (List.finRange 4).filter fun i => bitOf mask i.val else [a]
    let st :=
      if !axisServed s.modState code then 0x0105
      else if code = 0 ∨ 11 < code ∨ (code = 8 ∧ (mask = 0 ∨ 15 < mask)) then 0x0201
      else ((axes.filterMap fun i => s.axisRefusal i code).head?).getD 0
    if st ≠ 0 then refused (s.put (axisIx 0x6000 a) 7 st) st
    else accepted ((s.axisAct a code mask).put (axisIx 0x6000 a) 7 0)

/-- ENABLE (R238). -/
def execEnable (q : Sess) (a : AxisId) (s : State) : Out := .next (s.axisWrite q a 1 0)
/-- DISABLE (R238). -/
def execDisable (q : Sess) (a : AxisId) (s : State) : Out := .next (s.axisWrite q a 2 0)
/-- MOVE_ABS (R239, R240). -/
def execMoveAbs (q : Sess) (a : AxisId) (s : State) : Out := .next (s.axisWrite q a 3 0)
/-- MOVE_REL (R239, R240). -/
def execMoveRel (q : Sess) (a : AxisId) (s : State) : Out := .next (s.axisWrite q a 4 0)
/-- JOG (R239). -/
def execJog (q : Sess) (a : AxisId) (s : State) : Out := .next (s.axisWrite q a 5 0)
/-- STOP (R239, R258). -/
def execStop (q : Sess) (a : AxisId) (s : State) : Out := .next (s.axisWrite q a 6 0)
/-- HOME (R239, R257). -/
def execHome (q : Sess) (a : AxisId) (s : State) : Out := .next (s.axisWrite q a 7 0)
/-- COORD (R242). -/
def execCoord (q : Sess) (a : AxisId) (mask : Byte) (s : State) : Out := .next (s.axisWrite q a 8 mask.toNat)
/-- CLEAR (R239). -/
def execClear (q : Sess) (a : AxisId) (s : State) : Out := .next (s.axisWrite q a 9 0)
/-- FOLLOW (R239, R248). -/
def execFollow (q : Sess) (a : AxisId) (s : State) : Out := .next (s.axisWrite q a 10 0)
/-- SET_POSITION (R239). -/
def execSetPosition (q : Sess) (a : AxisId) (s : State) : Out := .next (s.axisWrite q a 11 0)

/-- BRAKE_RELEASE: BrakeDelay after ENA, the brake is released (R238). -/
def execBrakeRelease (a : AxisId) (s : State) : Out :=
  match s.axes[a].brakeAt with
  | some t =>
    if s.tick < t || s.axes[a].st != .enabling then .next s
    else .next ((s.overloadClear (12 + a.val)).modAxis a fun x => { x with brakeOn := false, brakeAt := none })
  | none => .next s

/-- ENABLE_DONE: a further BrakeDelay later the axis enters STANDSTILL (R238). -/
def execEnableDone (a : AxisId) (s : State) : Out :=
  match s.axes[a].doneAt with
  | some t =>
    if s.tick < t || s.axes[a].st != .enabling then .next s
    else .next (s.modAxis a fun x => { x with st := .standstill, doneAt := none, vel := 0, acc := 0, profileEnded := true })
  | none => .next s

/-- ENA_OFF: BrakeDelay after DISABLE, ENA turns off (R238). -/
def execEnaOff (a : AxisId) (s : State) : Out :=
  match s.axes[a].enaOffAt with
  | some t => if s.tick < t then .next s else .next (s.modAxis a fun x => { x with enaOn := false, enaOffAt := none })
  | none => .next s

/-- Rest: a deferred limit comes into force (R241). -/
def Axis.rest (x : Axis) : Axis :=
  { x with vel := 0, acc := 0, motive := .rest, plan := [], coordMask := 0, profileEnded := true
           limA := x.deferredA.getD x.limA, deferredA := none }

/-- FAULT at once, without a ramp (R247, R248): record 0x6101; the other axes of a coordinated move make a fault stop
(R242). -/
def State.faultNow (s : State) (a : AxisId) (cause : Nat) : State :=
  let s := if s.axes[a].st = .homing then s.failHoming a else s
  let s := ((s.coordGroup a).filter (· != a)).foldl (fun s i => (s.haltAxis i true cause).layerAxisFault i) s
  let s := s.modAxis a fun x => { (x.advance s.tick).rest with st := .fault, outstanding := 0, stopFault := false }
  (s.emit 0x6101 a.val [a.val, cause, bedUnit s.axes[a].pos]).layerAxisFault a

/-- STOP_COMPLETE: a stop reaches rest (R258). -/
def execStopComplete (a : AxisId) (s : State) : Out :=
  let x := s.axes[a]
  if x.st != .stopping || x.replan || !(x.planState s.tick).2 then .next s
  else
    let x' := x.advance s.tick
    if x.stopFault then
      let s := s.modAxis a fun _ => { x'.rest with st := .fault, stopFault := false }
      .next (s.emit 0x6101 a.val [a.val, x.stopCause, bedUnit x'.pos])
    else .next (s.modAxis a fun _ => { x'.rest with st := .standstill })

/-- VEL_LIMIT_WRITE: in force from the next period boundary (R241, R245). -/
def execVelLimitWrite (q : Sess) (a : AxisId) (v : BitVec 32) (s : State) : Out :=
  .next <| s.host q (axisIx 0x6002 a) 1 v.toNat fun s =>
    let top := if s.nat (axisIx 0x6003 a) 1 = 1 then 4000000 else 100000000
    if v.toNat = 0 ∨ top < v.toNat then refused s 0x0201 else accepted (s.put (axisIx 0x6002 a) 1 v.toNat)

/-- Distance left to the end of a move along its path, in the direction of its velocity. -/
def State.stopFits (s : State) (a : AxisId) : Bool :=
  let x := s.axes[a]
  let (y, _) := x.planState s.tick
  let l := s.limitsOf a
  match x.motive with
  | .target p =>
    let stop := (runPlan { p := 0, v := y.v, a := y.a } (velPlan y.v y.a 0 l.a l.j)).p
    decide (ratAbs stop ≤ ratAbs ((p : Rat) / 65536 - y.p))
  | _ => true

/-- ACCEL_LIMIT_WRITE: taken at once, or deferred until rest (R241). -/
def execAccelLimitWrite (q : Sess) (a : AxisId) (v : BitVec 32) (s : State) : Out :=
  .next <| s.host q (axisIx 0x6002 a) 2 v.toNat fun s =>
    if v.toNat = 0 ∨ 4000000000 < v.toNat then refused s 0x0201
    else if s.nat (axisIx 0x6002 a) 4 < v.toNat then refused s 0x0203
    else
      let s := s.put (axisIx 0x6002 a) 2 v.toNat
      let old := s.axes[a].limA
      let t := s.modAxis a fun x => { x with limA := v.toNat, deferredA := none }
      match s.axes[a].st with
      | .moving | .homing | .stopping =>
        let fits := old ≤ v.toNat || t.stopFits a
        if fits then accepted ((t.coordGroup a).foldl (fun s i => s.planAxis i) t)
        else
          let y := (s.axes[a].planState s.tick).1
          let l := t.limitsOf a
          let stop := (runPlan { p := 0, v := y.v, a := y.a } (velPlan y.v y.a 0 l.a l.j)).p
          let left : Rat := match s.axes[a].motive with | .target p => (p : Rat) / 65536 - y.p | _ => 0
          let s := s.modAxis a fun x => ({ x with deferredA := some v.toNat } : Axis).flag 2 true
          accepted (s.emit 0x6109 a.val [a.val, old, v.toNat, nearest left, nearest stop])
      | _ => accepted t

/-- HOMING_TIMEOUT: HomeTimeout without the reference fails the homing (R257). -/
def execHomingTimeout (a : AxisId) (s : State) : Out :=
  match s.axes[a].homeTimer with
  | some t => if s.tick < t || s.axes[a].st != .homing then .next s else .next (s.faultStop a 4)
  | none => .next s

end Sys2Proof.Machine
end

