-- ==== Sys2Proof/Machine/AxisIn.lean ====
section
/-!
DEFINITION. Axis feedback, outputs, switches and layer moves (R236, R243 to R257): what each profile period, encoder
sample, switch and step input does.
-/
namespace Sys2Proof.Machine

/-- EncPosition (R251). -/
def State.encPosition (s : State) (a : AxisId) : Int :=
  let x := s.axes[a]
  x.encRev * (s.nat (axisIx 0x6005 a) 5 : Int) + x.encCount

/-- ActualPos from EncPosition (R251). -/
def State.actualOf (s : State) (a : AxisId) : Int :=
  roundDiv (s.encPosition a * s.val (axisIx 0x6005 a) 4) 65536 + s.axes[a].actOffset

/-- Following error in counts. -/
def Axis.followError (x : Axis) : Int := bedUnit x.pos - x.actual

/-- The time since when the axis has been within InPosWindow with its profile ended (R244). -/
def State.trackWindow (s : State) (a : AxisId) : State :=
  let x := s.axes[a]
  if x.profileEnded && decide (x.followError.natAbs ≤ s.nat (axisIx 0x6005 a) 0x11) then
    s.modAxis a fun x => { x with inPosSince := some (x.inPosSince.getD s.tick) }
  else s.modAxis a fun x =>
    -- an excursion ends IN_POSITION too
    ({ x with inPosSince := none } : Axis).flag 1 (bitOf x.flags 1 && s.nat (axisIx 0x6005 a) 1 == 0)

/-- IN_POSITION (R244). -/
def execInPosition (a : AxisId) (s : State) : Out :=
  let s := s.modAxis a fun x => x.advance s.tick
  let x := s.axes[a]
  let up := x.st == .standstill || x.st == .moving
  if !up || !x.profileEnded then .next s
  else if s.nat (axisIx 0x6005 a) 1 = 0 then .next (s.modAxis a fun x => x.flag 1 true)
  else
    let s := s.trackWindow a
    match s.axes[a].inPosSince with
    | some t => if s.tick < t + msTicks (s.nat (axisIx 0x6005 a) 0x12) then .next s else .next (s.modAxis a fun x => x.flag 1 true)
    | none => .next s

/-- The latest edge, and the latest at least 1,600 ticks before it (R253). -/
def pruneEdgesAt (l : List (Int × Nat)) : List (Int × Nat) :=
  match l with
  | [] => []
  | (c, t) :: r => (c, t) :: r.takeWhile (fun x => decide (t < x.2 + 1600)) ++ (r.dropWhile fun x => decide (t < x.2 + 1600)).take 1

/-- Speed in counts per second from the edges (R253). -/
def edgeSpeed (l : List (Int × Nat)) (tick : Nat) : Int :=
  match l with
  | [] => 0
  | (c, t) :: r =>
    match r.find? fun x => decide (x.2 + 1600 ≤ t) with
    | none => 0
    | some (c', t') =>
      let dn := c - c'
      let dt := t - t'
      let since := tick - t
      if dn = 0 then 0
      else if dt < since * dn.natAbs then
        -- no edge for longer than the mean interval
        (if dn < 0 then -1 else 1) * ((80000000 / since : Nat) : Int)
      else roundDiv (dn * 80000000) dt

/-- An edge is time-stamped (R253): STANDSTILL ends and its timer starts again. -/
def State.edgeNow (s : State) (a : AxisId) : State :=
  let n := s.encPosition a
  let s := s.modAxis a fun x =>
    let l := pruneEdgesAt ((n, s.tick) :: x.edgesAt)
    ({ x with edgesAt := l, speed := edgeSpeed l s.tick, edgeSeen := true
              edgeTimer := some (s.tick + msTicks (s.nat (axisIx 0x6005 a) 0x0C)) } : Axis).flag 7 false
  s

/-- The count changes by d, wrapping at EncModulus (R251). -/
def State.countBy (s : State) (a : AxisId) (d : Int) : State :=
  let m : Int := s.nat (axisIx 0x6005 a) 5
  let s := s.modAxis a fun x =>
    if m = 0 then { x with encCount := x.encCount + d }
    else { x with encCount := (x.encCount + d) % m, encRev := x.encRev + (x.encCount + d) / m }
  (s.modAxis a fun x => { x with actual := s.actualOf a }).trackWindow a

/-- Place of a pair of lines in the quadrature cycle; a leading B counts up (R249). -/
def quadPlace (a b : Bool) : Int := if a then (if b then 2 else 3) else (if b then 1 else 0)

/-- ENCODER_EDGE: the filtered lines change (R249). -/
def execEncoderEdge (a : AxisId) (lineA lineB : Bool) (s : State) : Out :=
  let x := s.axes[a]
  if s.nat (axisIx 0x6005 a) 1 ≠ 1 then .next s
  else if lineA = x.lineA ∧ lineB = x.lineB then .next s
  else
    let s := s.modAxis a fun x => { x with lineA := lineA, lineB := lineB }
    if lineA ≠ x.lineA ∧ lineB ≠ x.lineB then
      let s := (s.bump (axisIx 0x6006 a) 5).modAxis a fun x => ({ x with illegalSince := x.illegalSince + 1 } : Axis).flag 3 true
      let due := match x.illegalAt with | some t => decide (t + 80000000 ≤ s.tick) | none => true
      if due then
        .next ((s.emit 0x6104 a.val [a.val, s.axes[a].illegalSince]).modAxis a fun x =>
          { x with illegalAt := some s.tick, illegalSince := 0 })
      else .next s
    else
      let up := (quadPlace lineA lineB - quadPlace x.lineA x.lineB) % 4 == 1
      let d : Int := if up != (s.nat (axisIx 0x6005 a) 3 == 1) then 1 else -1
      .next ((s.countBy a d).edgeNow a)

/-- Angle of (s, c) in 1/65,536 turn, rounded down. -/
def angle16 (sn cs : Int) : Nat :=
  let (q, u, v) := if 0 ≤ sn ∧ 0 < cs then (0, sn, cs) else if 0 < sn then (1, -cs, sn)
    else if cs < 0 then (2, -sn, -cs) else (3, cs, -sn)
  -- largest k of the quadrant with tan(k) ≤ u / v
  let k := (List.range 14).foldl (fun k i =>
    let t := k + 2 ^ (13 - i)
    if t < 16384 ∧ sinPhase (t * 65536) * v ≤ u * sinPhase (t * 65536 + 2 ^ 30) then t else k) 0
  if sn = 0 ∧ cs = 0 then 0 else q * 16384 + k

/-- SINCOS_SAMPLE: a 2 MS/s sample pair in Q2.14 of the nominal amplitude (R250). -/
def execSincosSample (a : AxisId) (sinRaw cosRaw : Int) (s : State) : Out :=
  let e := axisIx 0x6005 a
  if s.nat e 1 ≠ 2 then .next s
  else
    let sn := sinRaw - s.val e 0x13
    let cs := roundDiv ((cosRaw - s.val e 0x14) * s.val e 0x15) 16384
    let r2 := (sn * sn + cs * cs).toNat
    let lo := s.nat e 9
    let hi := s.nat e 0x0A
    let out := decide (r2 < lo * lo) || decide (hi * hi < r2)
    let amp := min 65535 (roundDiv r2 16384).toNat
    let s := s.put (axisIx 0x6006 a) 8 amp
    let s := s.modAxis a fun x => { x with ampRun := if out then x.ampRun + 1 else 0 }
    let was := bitOf s.axes[a].flags 5
    let bad := decide (s.nat e 0x0B ≤ s.axes[a].ampRun)
    let s := if out then (if bad && !was then
          (s.modAxis a fun x => x.flag 5 true).emit 0x6106 a.val [a.val, amp] else s)
      else s.modAxis a fun x => x.flag 5 false
    let x := s.axes[a]
    let th := angle16 sn cs
    let frac : Int := (th / 16 : Nat)
    let q := th / 16384
    let step := (q + 4 - x.periodQuadrant) % 4
    if step = 2 then .next (s.modAxis a fun x => ({ x with sampleBad := true, periodQuadrant := q } : Axis).flag 6 true)
    else
      let s := s.modAxis a fun x => ({ x with periodQuadrant := q, sampleBad := x.sampleBad || bad } : Axis).flag 6 false
      if bad then .next s
      else
        let turn : Int := if x.periodQuadrant = 3 ∧ q = 0 then 1 else if x.periodQuadrant = 0 ∧ q = 3 then -1 else 0
        let raw := (x.encRaw / 4096 + turn) * 4096 + frac
        let s := (s.modAxis a fun x => { x with encRaw := raw }).countBy a (raw - x.encRaw)
        let last := match s.axes[a].edgesAt.head? with | some (n, _) => n | none => 0
        if decide (s.nat e 0x0D < (s.encPosition a - last).natAbs) then .next (s.edgeNow a) else .next s

/-- STANDSTILL_TIMEOUT: no edge for StandstillTimeout (R253). An edge in the expiry tick has started the timer
again. -/
def execStandstillTimeout (a : AxisId) (s : State) : Out :=
  match s.axes[a].edgeTimer with
  | some t =>
    if s.tick < t then .next s
    else .next (s.modAxis a fun x => ({ x with speed := 0, edgeTimer := none } : Axis).flag 7 true)
  | none => .next s

/-- The reference of a homing is found at a position in counts (R257): it becomes HomePosition, and the axis stops
under StopAccel. -/
def State.homeReference (s : State) (a : AxisId) (latched : Int) (stopNow : Bool) : State :=
  let home := s.val (axisIx 0x6007 a) 8
  let s := s.modAxis a fun x =>
    ({ (x.advance s.tick).shift ((home - latched) * 65536) with homeTimer := none, indexRef := none } : Axis).flag 0 true
  let s := (s.put (axisIx 0x6000 a) 7 0).emit 0x6103 a.val [a.val, s.axes[a].homeMode, 0, home]
  if stopNow then s.modAxis a fun x => { x.rest with st := .standstill }
  else s.haltAxis a false 0

/-- Commanded or measured position, whichever a switch latches (R255). -/
def State.latchPos (s : State) (a : AxisId) : Int :=
  let x := s.axes[a].advance s.tick
  if s.nat (axisIx 0x6005 a) 1 = 0 then bedUnit x.pos else x.actual

/-- INDEX_PULSE: an index in the gate of R252. -/
def execIndexPulse (a : AxisId) (lineA lineB : Bool) (s : State) : Out :=
  let e := axisIx 0x6005 a
  let gate := s.nat e 7
  let inGate := gate == 255 || (bitOf gate 1 == lineA && bitOf gate 0 == lineB)
  if s.nat e 1 = 0 || !inGate then .next s
  else
    let x := s.axes[a]
    let mode := x.homeMode
    let seeks := x.st == .homing && x.homePass == 2 && (mode == 5 || mode == 6 || (mode == 7 && x.homeReleased))
    if seeks then .next (s.homeReference a x.actual false)
    else
      let m := s.nat e 5
      if m = 0 then .next s
      else
        let n := s.encPosition a
        match x.indexRef with
        | none => .next (s.modAxis a fun x => { x with indexRef := some n })
        | some r =>
          let h : Int := (m / 2 : Nat)
          let dev := (n - r + h) % m - h
          let s := s.put (axisIx 0x6006 a) 6 dev
          let s := if decide (s.nat e 8 < dev.natAbs) then
              (s.modAxis a fun x => x.flag 4 true).emit 0x6105 a.val [a.val, dev] else s
          if s.nat e 6 = 1 ∧ dev ≠ 0 then
            let before := s.axes[a].actual
            let s := (s.countBy a (-dev)).modAxis a fun x => { x with edgesAt := x.edgesAt.map fun y => (y.1 - dev, y.2) }
            let d := (s.axes[a].actual - before) * 65536
            let s := s.modAxis a fun x => { x.advance s.tick with replan := x.st != .standstill }
            .next (s.modAxis a fun x => 
              { x with pos := x.pos + d, planP := if x.coordMask = 0 then x.planP + d else x.planP, coordFrom := x.coordFrom + d
                       outPos := x.outPos + d })
          else .next s

/-- AxisFlags as the host reads them (0x6000.02). -/
def State.axisFlags (s : State) (a : AxisId) : Nat :=
  let x := s.axes[a]
  let base := x.flags % 2048
  base + (b2n (s.switchActive a 0)) * 2 ^ 11 + (b2n (s.switchActive a 1)) * 2 ^ 12 + (b2n (s.switchActive a 2)) * 2 ^ 13
    + (b2n (bitOf x.flags 14)) * 2 ^ 14 + (b2n (!x.brakeOn)) * 2 ^ 15

/-- Counts that an axis in SLAVED emits in one period (R248), 2^−16: at a uniform rate, at most 4,000,000 counts/s. -/
def Axis.emission (x : Axis) : Int :=
  let e := x.emitFrom * 1600 / (max 1 x.stepInterval : Nat)
  let cap : Int := 80 * 65536
  let e := clampInt e (-cap) cap
  let e := if x.emitFrom ≠ 0 ∧ e = 0 then x.outstanding else e
  if 0 ≤ x.outstanding then clampInt e 0 x.outstanding else clampInt e x.outstanding 0

/-- Place the STEP edges of one period (R245): crossings of the linear path from p to q (2^−16 counts) over the period
that starts at a tick, each delayed where the spacing of edges or of DIR would break. -/
def placeSteps (start : Nat) (p q : Int) (high setup : Int) (inv : Bool) (last : Int) (dir : Bool) : List (Int × Bool) × Int × Bool :=
  let n := if p ≤ q then (q / 65536 - p / 65536).toNat else ((-q) / 65536 - (-p) / 65536).toNat
  (List.range n).foldl (fun (acc : List (Int × Bool) × Int × Bool) (i : Nat) =>
    let (l, last, dir) := acc
    let up := p ≤ q
    let at' : Int := if up then (p / 65536 + 1 + (i : Int)) * 65536 else -(((-p) / 65536 + 1 + (i : Int)) * 65536)
    let t : Int := (start : Int) + (1600 * (at' - p).natAbs / (q - p).natAbs : Nat)
    let d := up != inv
    let least := if d = dir then last + 20 else max (last + high + setup) (last + 20)
    let t := max t least
    (l ++ [(t, d)], t, d)) ([], last, dir)

/-- Output position: the commanded one and the lane's correction (R254). -/
def State.outputPos (s : State) (a : AxisId) : Int :=
  let x := s.axes[a]
  let k := axisIx 0x6003 a
  if s.nat k 0x0D = 1 then x.pos + roundDiv (x.laneOut * (s.nat k 0x0E)) 32768 * 65536 else x.pos

/-- Phase duties in PWM ticks (R246). -/
def State.phaseDuty (s : State) (a : AxisId) (vbusMv : Nat) : Int × Int :=
  let k := axisIx 0x6003 a
  let phi := ((s.outputPos a) * 2 ^ 14 / (max 1 (s.nat k 5) : Nat) % 2 ^ 32).toNat
  let duty := fun (t : Int) =>
    if vbusMv = 0 then 0
    else clampInt (roundDiv (3200 * (s.nat k 6) * t * Config.phaseBusMv) (65535 * trigOne * vbusMv)) (-3200) 3200
  (duty (sinPhase ((phi + 2 ^ 30) % 2 ^ 32)), duty (sinPhase phi))

/-- The outputs of the period that starts now (R245, R246). -/
def State.drive (s : State) (a : AxisId) (vbusMv : Nat) : State :=
  let x := s.axes[a]
  let k := axisIx 0x6003 a
  let out := s.outputPos a
  -- in DISABLED no steps, and the phase outputs low (Table 11.1)
  if x.st = .disabled then s.modAxis a fun x => { x with outPos := out, stepEdges := [], phaseA := 0, phaseB := 0 }
  else match s.nat k 1 with
  | 1 =>
    let (l, last, dir) := placeSteps s.tick x.outPos out (s.nat k 2) (s.nat k 3) (s.nat k 4 == 1) x.lastStepTick x.dirOut
    s.modAxis a fun x => { x with outPos := out, stepEdges := l, lastStepTick := last, dirOut := dir }
  | 2 =>
    let (pa, pb) := s.phaseDuty a vbusMv
    s.modAxis a fun x => { x with outPos := out, phaseA := pa, phaseB := pb }
  | _ => s.modAxis a fun x => { x with outPos := out }

/-- The profile of an axis at a boundary: a VelLimit in force from now, a plan made anew, the end of a move or a
homing pass (R240, R241, R257). -/
def State.profileStep (s : State) (a : AxisId) : State :=
  let x := s.axes[a]
  match x.st with
  | .moving | .homing | .stopping =>
    let vel := s.nat (axisIx 0x6002 a) 1
    let s := s.modAxis a fun x => x.advance s.tick
    let s := if x.replan = true ∧ x.motive = .halt then s.latchStops a else s
    let s := if x.limV ≠ vel ∨ x.replan = true then
        -- the axes of a coordinated move keep one path (R242)
        (s.coordGroup a).foldl (fun s i => s.planAxis i) (s.modAxis a fun x => { x with limV := vel }) else s
    let x := s.axes[a]
    let fin := (x.planState s.tick).2 && !x.replan
    if !fin then s
    else
      match x.st, x.motive with
      | .moving, .jog _ => s
      | .homing, .jog _ => s
      | .homing, _ => if x.homePass = 1 then s.startPass a 2 else s.modAxis a fun x => { x.rest with st := .standstill }
      | .moving, _ => s.modAxis a fun x => { x.rest with st := .standstill }
      | _, _ => s
  | .slaved =>
    let e := x.emission
    let dir := x.outstanding
    if s.intoLimit a dir then s.faultNow a 5
    else s.modAxis a fun x => { x with pos := x.pos + e, vel := e * 50000, outstanding := x.outstanding - e }
  | _ => s.modAxis a fun x => { x with limV := s.nat (axisIx 0x6002 a) 1 }

/-- Following error beyond FollowLimit (R254). -/
def State.checkFollow (s : State) (a : AxisId) : State :=
  let x := s.axes[a]
  let on := match x.st with | .disabled | .enabling | .fault => false | _ => true
  if s.nat (axisIx 0x6005 a) 1 ≠ 0 && on && decide (s.nat (axisIx 0x6005 a) 0x10 < x.followError.natAbs) && !(x.st == .stopping && x.stopFault) then
    (s.modAxis a fun x => x.flag 10 true).faultStop a 1
  else s

/-- Counts of periods without valid samples and without edges (R254). -/
def State.countFeedback (s : State) (a : AxisId) : State :=
  let x := s.axes[a]
  let fast := decide (s.nat (axisIx 0x6005 a) 0x0E ≤ (x.vel / 65536).natAbs)
  s.modAxis a fun x =>
    { x with invalidRun := if x.sampleBad then x.invalidRun + 1 else 0, sampleBad := false, edgeSeen := false
             freezeRun := if fast && !x.edgeSeen then x.freezeRun + 1 else 0
             speed := if bitOf x.flags 7 then 0 else edgeSpeed x.edgesAt s.tick }

/-- PROFILE_PERIOD: a boundary of the 20 µs profile period, once for each (R236, R240 to R246, R253, R254). -/
def execProfilePeriod (a : AxisId) (vbusMv : Nat) (s : State) : Out :=
  if s.tick % 1600 ≠ 0 || s.axes[a].periodAt == s.tick + 1 then .next s
  else
    let s := s.modAxis a fun x => { x with periodAt := s.tick + 1, vbus := vbusMv }
    let s := ((s.profileStep a).trackWindow a).countFeedback a
    let (sec, ns) := s.deviceTime
    let s := s.modAxis a fun x => { x with latch := [s.encPosition a, sec, ns, x.speed, s.axisFlags a] }
    .next ((s.checkFollow a).drive a vbusMv)

/-- AXIS_FEEDBACK_LOST: the conditions of R254; the lane records the loss (R146) and the axis makes a controlled
stop. -/
def execAxisFeedbackLost (a : AxisId) (s : State) : Out :=
  let x := s.axes[a]
  let n := axisLane a
  let lost := decide (s.nat (laneIx 0x580B n) 1 ≤ x.invalidRun) || bitOf x.flags 5 || bitOf x.flags 6
    || decide (s.nat (axisIx 0x6005 a) 0x0F ≤ x.freezeRun)
  if s.nat (axisIx 0x6005 a) 1 = 0 || !lost || bitOf x.flags 14 then .next s
  else
    let s := (s.modAxis a fun x => x.flag 14 true).loseFeedback n a.val 3
    match x.st with
    | .moving | .homing | .slaved => .next ((s.coordGroup a).foldl (fun s i => s.haltAxis i false 0) s)
    | _ => .next s

/-- STEP_IN_EDGE: a filtered step input of an axis in SLAVED (R248). -/
def execStepInEdge (a : AxisId) (dirPositive : Bool) (s : State) : Out :=
  let s := s.put (axisIx 0x6004 a) 2 (s.val (axisIx 0x6004 a) 2 + if dirPositive then 1 else -1)
  let x := s.axes[a]
  if x.st != .slaved then .next s
  else
    let d : Int := (if dirPositive then 1 else -1) * s.nat (axisIx 0x6004 a) 1 * 65536
    let dt := match x.lastStep with | some t => min 800000 (s.tick - t) | none => 800000
    let o := x.outstanding + d
    if s.intoLimit a o then .next ((s.modAxis a fun x => { x with outstanding := 0 }).faultNow a 5)
    else .next (s.modAxis a fun x =>
      { x with outstanding := o, emitFrom := o, lastStep := some s.tick, stepInterval := max 1 dt })

/-- A switch becomes active or inactive (R256, R257): homing passes and fault stops. -/
def State.switchEffect (s : State) (a : AxisId) (i : Fin 3) (active : Bool) : State :=
  let s := s.modAxis a fun x => x.advance s.tick
  let x := s.axes[a]
  let hits := active && decide (i.val < 2) && s.intoLimit a (if x.st = .slaved then x.outstanding else x.vel)
  if x.st = .homing ∧ x.motive ≠ .halt then
    match (homeSeek x.homeMode x.homePass).2 with
    | some (j, lvl) =>
      if i = j ∧ active = lvl then
        if x.homePass = 1 then
          let y := x.own
          ((s.latchStops a).modAxis a fun x => { x with motive := .halt }).planFrom a y
        else if x.homeMode = 7 then s.modAxis a fun x => { x with homeReleased := true }
        else s.homeReference a x.swPos[i] false
      else if hits && !(i = j) then s.faultStop a 0
      else s
    | none => if hits then s.faultStop a 0 else s
  else if hits then
    if x.st = .slaved then s.faultNow a 5
    else
      match x.st with
      | .moving => s.faultStop a 0
      | .stopping => if x.stopFault then s else s.faultStop a 0
      | _ => s
  else s

/-- Raw transitions of a switch within the chatter window (R255). -/
def State.transitions (s : State) (a : AxisId) (i : Fin 3) : Nat :=
  let w := msTicks (s.nat (axisIx 0x6007 a) 4)
  (s.axes[a].swTrans.filter fun t => t.1 == i.val && decide (s.tick < t.2 + w)).length

/-- SWITCH_CHANGE: the raw level of a switch is `level`: a transition is noted, and a level that has stood for
DebounceTime becomes the debounced state (R255 to R257). -/
def execSwitchChange (a : AxisId) (sw : Fin 3) (level : Bool) (s : State) : Out :=
  let x := s.axes[a]
  let s := if x.swRaw.getLsbD sw.val = level then s
    else
      let p := s.latchPos a
      let s := s.modAxis a fun x =>
        { x with swRaw := if level then x.swRaw ||| BitVec.ofNat 3 (2 ^ sw.val) else x.swRaw &&& ~~~ BitVec.ofNat 3 (2 ^ sw.val)
                 swTrans := (x.swTrans ++ [(sw.val, s.tick)]).filter fun t => decide (s.tick < t.2 + 800000000)
                 swSince := x.swSince.set sw s.tick, swPos := x.swPos.set sw p }
      if s.nat (axisIx 0x6007 a) 3 < s.transitions a sw ∧ s.axes[a].swChatter.getLsbD sw.val = false then
        let homing := s.axes[a].st == .homing
        let s := s.modAxis a fun x =>
          ({ x with swChatter := x.swChatter ||| BitVec.ofNat 3 (2 ^ sw.val) } : Axis).flag 8 true
        if homing then s.faultStop a 3
        else (s.emit 0x6108 a.val [a.val, sw.val, s.transitions a sw]).switchEffect a sw true
      else s
  let x := s.axes[a]
  let due := decide (x.swSince[sw] + s.nat (axisIx 0x6007 a) 2 * 80 ≤ s.tick)
  if due && x.swLevel.getLsbD sw.val != level then
    let s := s.modAxis a fun x =>
      { x with swLevel := if level then x.swLevel ||| BitVec.ofNat 3 (2 ^ sw.val) else x.swLevel &&& ~~~ BitVec.ofNat 3 (2 ^ sw.val) }
    .next (s.switchEffect a sw (level != bitOf (s.nat (axisIx 0x6007 a) 1) sw.val))
  else .next s

/-- CHATTER_CLEARED: a window passes without excess (R255). -/
def execChatterCleared (a : AxisId) (sw : Fin 3) (s : State) : Out :=
  if s.axes[a].swChatter.getLsbD sw.val && decide (s.transitions a sw ≤ s.nat (axisIx 0x6007 a) 3) then
    .next (s.modAxis a fun x => { x with swChatter := x.swChatter &&& ~~~ BitVec.ofNat 3 (2 ^ sw.val) })
  else .next s

/-- STALL: the load angle of one period from the voltages (mV), currents (mA) and their slopes (A/s) at the PWM
centre (R247). -/
def execStall (a : AxisId) (uA uB iA iB diA diB : Int) (s : State) : Out :=
  let k := axisIx 0x6003 a
  let s := s.modAxis a fun x => x.advance s.tick
  let x := s.axes[a]
  let valid := s.nat k 1 == 2 && decide (s.nat k 0x0B ≤ (x.vel / 65536).natAbs)
  let r : Int := s.nat k 7
  let l : Int := s.nat k 8
  let eA := 1000 * uA - r * iA - l * diA
  let eB := 1000 * uB - r * iB - l * diB
  let theta := (s.outputPos a) * 2 ^ 14 / (max 1 (s.nat k 5) : Nat) / 65536
  let d := signed 16 (unsigned 16 (theta - ((angle16 eB eA : Int) - 16384)))
  let deg := roundDiv (d * 360) 65536
  let beyond := decide ((s.nat k 9 : Int) * 65536 < d.natAbs * 360)
  let s := s.modAxis a fun x => { x with loadAngle := deg, stallRun := if valid && beyond then x.stallRun + 1 else 0 }
  let live := match x.st with | .moving | .homing | .stopping | .slaved => true | _ => false
  if !live || decide (s.axes[a].stallRun < s.nat k 0x0A) then .next s
  else if x.st = .homing ∧ x.homeMode = 8 then .next ((s.modAxis a fun x => { x with stallRun := 0 }).homeReference a (s.latchPos a) true)
  else
    let s := s.modAxis a fun x => (({ x with stallRun := 0 } : Axis).flag 9 true).flag 0 false
    .next ((s.emit 0x6107 a.val [a.val, deg, bedUnit x.pos]).faultNow a 2)

/-- Axes that move at a layer end. -/
def State.layerAxes (s : State) : List AxisId := (List.finRange 4).filter fun a => s.nat (axisIx 0x6008 a) 1 != 0

/-- Layer-moving axes of a set are all IN_POSITION. -/
def State.inPosition (s : State) (l : List AxisId) : Bool := l.all fun a => bitOf s.axes[a].flags 1

/-- The layer moves are over (R243). -/
def State.layerMovesDone (s : State) : Bool := !s.layer.moving || (s.layer.stage == 4 && s.inPosition s.layerAxes)

/-- LAYER_STAGE_START: the next stage of layer moves starts once the axes of the stage before are IN_POSITION (R243). -/
def execLayerStageStart (s : State) : Out :=
  let on := s.inBuild || s.modState == .ready
  if !on || !s.layer.moving || decide (3 < s.layer.stage) then .next s
  else
    let st := s.layer.stage
    let before := s.layerAxes.filter fun a => s.nat (axisIx 0x6008 a) 3 + 1 == st
    if !s.inPosition before then .next s
    else
      let now := s.layerAxes.filter fun a => s.nat (axisIx 0x6008 a) 3 == st && s.axes[a].st == .standstill
      let s := { s with layer := { s.layer with stage := st + 1 } }
      .next (now.foldl (fun s a =>
        let d := s.val (axisIx 0x6008 a) 2
        let d := if s.nat (axisIx 0x6008 a) 1 = 2 ∧ s.layer.number % 2 = 0 then -d else d
        (s.newMove a).startAxis a .moving (.target (s.axes[a].pos + d * 65536))) s)

end Sys2Proof.Machine
end

