-- ==== Sys2Proof/Machine/Scaler.lean ====
section
/-!
DEFINITION. The scale and blend stages (R216, R217, R222, R223): pixels as RGBA, the polyphase scaler, and the
composition of placed pictures.
-/
namespace Sys2Proof.Machine

/-- An RGBA pixel, each channel 0 to 255. -/
abbrev Pixel := Nat × Nat × Nat × Nat

/-- Palette entry v (R216). -/
def paletteAt (p : Bytes) (v : Nat) : Pixel :=
  let b := fun (i : Nat) => (p.getD (4 * v + i) 0).toNat
  (b 0, b 1, b 2, b 3)

/-- The RGBA value of a source pixel; positions outside the source frame repeat its edge (R216, R217). -/
def SrcImage.pixel (i : SrcImage) (palette : Option Bytes) (x y : Int) : Pixel :=
  let cx := (clampInt x 0 (i.width - 1)).toNat
  let cy := (clampInt y 0 (i.height - 1)).toNat
  let b := fun (o : Nat) => (i.data.getD o 0).toNat
  let row := cy * i.stride
  let mono := fun (v : Nat) => match palette with | some p => paletteAt p v | none => (v, v, v, 255)
  match i.kind with
  | 0 => mono (b (row + cx))
  | 1 => mono ((b (row + 2 * cx) + 256 * b (row + 2 * cx + 1)) / 2 ^ i.drop % 256)
  | 2 => match palette with | some p => paletteAt p (b (row + cx)) | none => (0, 0, 0, 0)
  | _ => (b (row + 4 * cx), b (row + 4 * cx + 1), b (row + 4 * cx + 2), b (row + 4 * cx + 3))

/-- Where a destination pixel takes its centre, in 1/64 source pixel rounded down (R217, row 17). -/
def centre64 (src srcLen dstLen x : Nat) : Int :=
  (64 * (2 * src * dstLen + (2 * x + 1) * srcLen : Nat) - 64 * dstLen : Int).fdiv (2 * dstLen)

/-- Coefficient of a phase and tap, Q2.14. -/
def coeff (b : Bytes) (taps phase tap : Nat) : Int := signed 16 (leAt b (2 * (taps * phase + tap)) 2)

/-- A channel sum in Q4.28, rounded to nearest and held within 0 to 255. -/
def channel (v : Int) : Nat := (clampInt (roundDiv v (2 ^ 28)) 0 255).toNat

/-- One scaled pixel: 8 taps horizontally, 4 vertically (R217). -/
def scaledPixel (c : PlaneConfig) (i : SrcImage) (palette : Option Bytes) (h v : Bytes) (x y : Nat) : Pixel :=
  let px := centre64 c.srcX c.srcW c.dstW x
  let py := centre64 c.srcY c.srcH c.dstH y
  let taps := (List.range 8).flatMap fun (a : Nat) => (List.range 4).map fun (b : Nat) =>
    (coeff h 8 (px % 64).toNat a * coeff v 4 (py % 64).toNat b, i.pixel palette (px / 64 - 3 + a) (py / 64 - 1 + b))
  let sum := fun (f : Pixel → Nat) => channel ((taps.map fun (t : Int × Pixel) => t.1 * (f t.2 : Int)).sum)
  (sum (·.1), sum (·.2.1), sum (·.2.2.1), sum (·.2.2.2))

def pixelOctets (p : Pixel) : Bytes := [BitVec.ofNat 8 p.1, BitVec.ofNat 8 p.2.1, BitVec.ofNat 8 p.2.2.1, BitVec.ofNat 8 p.2.2.2]

/-- The palette a plane uses: always for INDEX8, with PaletteEnable for mono (R216). -/
def State.paletteOf (s : State) (k : Nat) (c : PlaneConfig) (kind : Nat) : Option Bytes :=
  if c.palette || kind = 2 then some (s.blobVal (0x7180 + k) 1) else none

/-- Scale a source picture for plane k; destination lines whose centre lies in a lost source line-group are
transparent (R217, R225). -/
def State.scaleImage (s : State) (k : Nat) (c : PlaneConfig) (i : SrcImage) (lostGroups : List Nat) : ScaledBuf :=
  let h := s.blobVal (0x71C0 + k) 1
  let v := s.blobVal (0x71C0 + k) 2
  let pal := s.paletteOf k c i.kind
  { width := c.dstW, height := c.dstH, frame := i.frame, bad := !lostGroups.isEmpty
    pixels := (List.range c.dstH).flatMap fun (y : Nat) =>
      let line := (centre64 c.srcY c.srcH c.dstH y / 64).toNat
      if lostGroups.contains (line / 8) then List.replicate (4 * c.dstW) 0
      else (List.range c.dstW).flatMap fun (x : Nat) => pixelOctets (scaledPixel c i pal h v x y) }

/-- The memory buffer of a plane as it stands (R216, R220): lines of the pitch, as far as the window reaches; in
address space 0 (row 18). -/
def State.memorySource (s : State) (c : PlaneConfig) : Option SrcImage :=
  let n := (c.srcY + c.srcH) * c.stride
  let bytes := match c.format with | 0 | 2 => 1 | 1 => 2 | _ => 4
  (s.readVirtual 0 c.address n).map fun d =>
    { width := c.stride / bytes, height := c.srcY + c.srcH, kind := c.format, drop := 8, stride := c.stride, data := d }

/-- One channel of the blend: α = Alpha × pixel alpha / 65,025, rounded to nearest (R222). -/
def blend (a upper below : Nat) : Nat := (2 * (a * upper + (65025 - a) * below) + 65025) / 130050

/-- A placed picture over a pixel (R222); outside its destination it is transparent. -/
def Placed.over (p : Placed) (x y : Nat) (b : Pixel) : Pixel :=
  if p.x ≤ x ∧ x < p.x + p.buf.width ∧ p.y ≤ y ∧ y < p.y + p.buf.height then
    let o := 4 * ((y - p.y) * p.buf.width + (x - p.x))
    let v := fun (i : Nat) => (p.buf.pixels.getD (o + i) 0).toNat
    let a := p.alpha * v 3
    (blend a (v 0) b.1, blend a (v 1) b.2.1, blend a (v 2) b.2.2.1, blend a (v 3) b.2.2.2)
  else b

/-- The pixels of an output frame: the pictures of each line in plane order over Background (R222). -/
def compose (width height background : Nat) (l : Nat → List Placed) : Bytes :=
  let bg : Pixel := (field background 23 16, field background 15 8, field background 7 0, 255)
  (List.range height).flatMap fun y => (List.range width).flatMap fun x =>
    pixelOctets ((l y).foldl (fun b p => p.over x y b) bg)

end Sys2Proof.Machine
end

