-- ==== Sys2Proof/Machine/Compositor.lean ====
section
/-!
DEFINITION. Compositor, output and DisplayPort (R213, R218 to R227): commits, scaled buffers, the frame
boundary, the flatten cache, write-back, and link training.
-/
namespace Sys2Proof.Machine

/-- A commit is answered: its status entry, and record 0x7203 where it is refused (R213, R218, R219, R224). -/
def State.commitStatus (s : State) (index sub what status : Nat) : State × Nat :=
  let s := s.put index sub status
  (if status = 0 then s else s.emit 0x7203 255 [what, status], status)

/-- A staged value lies outside its entry's range (R213, R219). -/
def State.stagedBad (s : State) (index sub : Nat) : Bool :=
  match findEntry index sub with | some d => !inRange d (s.val index sub) | none => false

/-- PORT_COMMIT (R213). -/
def execPortCommit (q : Sess) (p : CamId) (v : Byte) (s : State) : Out :=
  let ix := 0x7000 + p.val
  .next <| s.host q ix 0x0A v.toNat fun s =>
    if s.modState = .building then s.commitStatus ix 0x0B (16 + p.val) 0x0105
    else if v ≠ 1 then refused s 0x0201
    else
      let g := s.stagedCam p
      let lanesOk := g.lanes == 1 || g.lanes == 2 || (g.lanes == 4 && p.val == 0)
      if !lanesOk || g.laneRate < 80 || 1500 < g.laneRate then s.commitStatus ix 0x0B (16 + p.val) 0x0702
      else if [4, 5, 6, 7, 8, 9].any (s.stagedBad ix) then s.commitStatus ix 0x0B (16 + p.val) 0x0201
      else (s.modCam p fun c => { c with staged := some g }).commitStatus ix 0x0B (16 + p.val) 0

/-- TRIG_NOW: a write of 1 in trigger mode 1 requests an exposure (R215). -/
def execTrigNow (q : Sess) (p : CamId) (v : Byte) (s : State) : Out :=
  .next <| s.host q (0x7000 + p.val) 0x0F v.toNat fun s =>
    if v.toNat > 1 then refused s 0x0201
    else if v = 1 ∧ s.nat (0x7000 + p.val) 0x0C = 1 then accepted (s.requestExposure p)
    else accepted s

/-- Static planes, and dynamic ones (R216, R220). -/
def PlaneConfig.static (c : PlaneConfig) : Bool := c.source == 0x20
def PlaneConfig.dynamic (c : PlaneConfig) : Bool := c.source != 0x20 && c.source != 0

/-- The staged configuration of a plane. -/
def State.stagedPlane (s : State) (k : PlaneId) : PlaneConfig :=
  let v := s.nat (0x7100 + k.val)
  { source := v 1, format := v 2, srcX := v 3, srcY := v 4, srcW := v 5, srcH := v 6, dstX := v 7, dstY := v 8
    dstW := v 9, dstH := v 10, alpha := v 11, divider := v 12, staleLimit := v 13, palette := v 14 == 1
    address := v 15, stride := v 16 }

/-- The configuration a plane will have after the next boundary. -/
def State.planeAhead (s : State) (k : PlaneId) : PlaneConfig := (s.planes[k].next).getD s.planes[k].cfg

/-- The configurations with plane k's replaced by a new one. -/
def State.planesWith (s : State) (k : PlaneId) (c : PlaneConfig) : List PlaneConfig :=
  (List.finRange 8).map fun j => if j = k then c else s.planeAhead j

/-- Some static plane has dynamic planes both above and below it (R219). -/
def sandwiched (l : List PlaneConfig) : Bool :=
  (List.range 8).any fun i => (l.getD i {}).static && (l.take i).any (·.dynamic) && (l.drop (i + 1)).any (·.dynamic)

/-- Scale load of the dynamic planes in pixels per second (R219). -/
def scaleLoad (m : Compositor) (l : List PlaneConfig) : Rat :=
  ((l.filter (·.dynamic)).map fun c =>
    ((c.srcW * c.srcH * m.clock * 1000 : Nat) : Rat) / ((m.hTotal * m.vTotal * c.divider : Nat) : Rat)).sum

/-- The source window lies in the source frame (R219). -/
def State.windowOk (s : State) (c : PlaneConfig) : Bool :=
  if h : 1 ≤ c.source ∧ c.source ≤ 5 then
    let g := s.cams[c.source - 1].cfg
    decide (c.srcX + c.srcW ≤ g.width) && decide (c.srcY + c.srcH ≤ g.height)
  else
    let bytes := match c.format with | 0 | 2 => 1 | 1 => 2 | _ => 4
    decide ((c.srcX + c.srcW) * bytes ≤ c.stride)

/-- The status of a plane commit (R218, R219). -/
def State.planeCheck (s : State) (k : PlaneId) (c : PlaneConfig) : Nat :=
  let l := s.planesWith k c
  if 8192 < c.srcW ∨ 16 * c.dstW < c.srcW ∨ 4 * c.dstH < c.srcH then 0x0701
  else if ¬ (c.source ≤ 5 ∨ c.source = 0x10 ∨ c.source = 0x20) ∨ c.address % 64 ≠ 0 ∨ c.stride % 64 ≠ 0
      ∨ ((List.range 16).any fun (i : Nat) => s.stagedBad (0x7100 + k.val) (i + 1)) then 0x0201
  else if c.source = 0 then 0
  else if !s.windowOk c ∨ s.comp.width < c.dstX + c.dstW ∨ s.comp.height < c.dstY + c.dstH then 0x0203
  else if 8 * c.srcW < c.dstW ∨ 8 * c.srcH < c.dstH then 0x0203
  else if sandwiched l then 0x0203
  else if (1000000000 : Rat) < scaleLoad s.comp l then 0x0702
  else 0

/-- A flatten is requested: it starts, or starts again (R223). -/
def State.startFlatten (s : State) : State := { s with comp := { s.comp with flattenRun := some s.tick } }

/-- PLANE_COMMIT (R218, R219): accepted, it takes effect at the next frame boundary. -/
def execPlaneCommit (q : Sess) (k : PlaneId) (v : Byte) (s : State) : Out :=
  let ix := 0x7100 + k.val
  .next <| s.host q ix 0x12 v.toNat fun s =>
    if v ≠ 1 then refused s 0x0201
    else
      let c := s.stagedPlane k
      match s.planeCheck k c with
      | 0 =>
        let old := (s.planeAhead k).static
        let s := s.modPlane k fun x => { x with next := some c }
        (if c.static || old then s.startFlatten else s).commitStatus ix 0x13 k.val 0
      | e => s.commitStatus ix 0x13 k.val e

/-- Octets of a plane's memory buffer that its source window reaches. -/
def PlaneConfig.span (c : PlaneConfig) : Nat := (c.srcY + c.srcH) * c.stride

/-- The compositor reads a plane's memory buffer; at a page that is not mapped it faults, and the read waits (R165). -/
def State.readPlane (s : State) (c : PlaneConfig) : State × Option SrcImage :=
  match s.translateRange .compositor 0 false (c.span / 65536 + 2) c.address c.span with
  | (s, some (va, l, k)) => (s.faultOnce .compositor 255 0 va false l k 0, none)
  | (s, none) => (s, s.memorySource c)

/-- The memory buffer of plane k as it stands goes to the scale stage, once it can be read (R220). -/
def State.takeMemory (s : State) (k : PlaneId) : State :=
  match s.readPlane s.planes[k].cfg with
  | (s, some i) => s.modPlane k fun x => { x with scaling := some i, held := false }
  | (s, none) => s.modPlane k fun x => { x with held := true }

/-- Reads of memory buffers that a fault has held go on (R166). -/
def State.resumePlanes (s : State) : State :=
  State.foldFin 8 s fun k s => if s.planes[k].held then s.takeMemory k else s

/-- PLANE_FLIP: the memory buffer as it stands is scaled (R220). -/
def execPlaneFlip (q : Sess) (k : PlaneId) (v : Byte) (s : State) : Out :=
  .next <| s.host q (0x7100 + k.val) 0x11 v.toNat fun s =>
    if v.toNat > 1 then refused s 0x0201
    else if v = 1 ∧ s.planes[k].cfg.source = 0x10 then
      accepted (s.takeMemory k)
    else accepted s

/-- SCALE_DONE: the scaled buffer is completed, the camera slot unlocked, and the next frame taken (R220, R225); the line-groups
of 8 that found no Q_IMG credit, as the row gives them, are counted (R17). -/
def execScaleDone (k : PlaneId) (lostGroups : List Nat) (s : State) : Out :=
  let x := s.planes[k]
  match x.scaling with
  | none => .next s
  | some i =>
    let b := s.scaleImage k.val x.cfg i lostGroups
    let lost := (lostGroups.eraseDups.filter fun g => decide (8 * g < x.cfg.dstH)).length
    let s := if lost = 0 then s else s.count 0xF011 2 lost
    .next ((s.modPlane k fun x => { x with scaling := none, fresh := some b, isNew := true }).feedPlane k)

/-- A new configuration keeps the buffer in use when nothing that shaped it changes. -/
def sameShape (a b : PlaneConfig) : Bool :=
  { a with dstX := 0, dstY := 0, alpha := 0, divider := 1, staleLimit := 1 }
    == { b with dstX := 0, dstY := 0, alpha := 0, divider := 1, staleLimit := 1 }

/-- Accepted commits take effect at a boundary (R219). -/
def Plane.adopt (x : Plane) : Plane :=
  match x.next with
  | none => { x with since := x.since + 1 }
  | some c =>
    let keep := sameShape x.cfg c
    { x with
      cfg := c, next := none, since := 0, isNew := false, staleRun := 0, stale := false, transparent := false
      scaling := if keep then x.scaling else none, fresh := if keep then x.fresh else none
      shown := if keep then x.shown else none }

/-- This boundary is one of the checked ones: every SourceDivider-th from the one at which the configuration took
effect (R220). -/
def Plane.checked (x : Plane) : Bool := x.cfg.dynamic && 0 < x.since && x.since % x.cfg.divider == 0

/-- The planes of a plane's group (R220). -/
def State.groupOf (s : State) (k : PlaneId) : List PlaneId :=
  (List.finRange 8).filter fun j =>
    s.planes[j].cfg.source == s.planes[k].cfg.source && s.planes[j].cfg.divider == s.planes[k].cfg.divider

/-- The group of a plane is ready: every member has a new scaled buffer, all of one camera frame (R220). -/
def State.groupReady (s : State) (k : PlaneId) : Bool :=
  let frame := s.planes[k].fresh.map (·.frame)
  (s.groupOf k).all fun j => s.planes[j].isNew && s.planes[j].fresh.map (·.frame) == frame

/-- The check of one plane against readiness found beforehand (R220, R221). -/
def State.checkPlane (s : State) (k : PlaneId) (ready : Bool) : State :=
  let x := s.planes[k]
  if !x.checked then s
  else if ready then
    let s := if x.transparent then s.emit 0x7202 255 [k.val] else s
    s.modPlane k fun x =>
      { x with shown := x.fresh, isNew := false, ready := true, stale := false, transparent := false, staleRun := 0 }
  else
    (s.bump (0x7100 + k.val) 0x15).modPlane k fun x =>
      { x with isNew := false, ready := false, stale := true, staleRun := x.staleRun + 1 }

/-- A picture of a plane in the output. -/
def Plane.placed (x : Plane) (k : Nat) : List Placed :=
  match x.shown with
  | some b =>
    if x.cfg.dynamic && !x.transparent then [{ plane := k, x := x.cfg.dstX, y := x.cfg.dstY, alpha := x.cfg.alpha, buf := b }]
    else []
  | none => []

/-- Bits of the planes for which a test holds. -/
def State.planeBits (s : State) (f : Plane → Bool) : Nat := ofBits (s.planes.toList.map f)

/-- A bad frame: record 0x7204, OutFramesBad (R225). Causes: 1 line-group, 2 flatten cache, 3 write-back. -/
def State.badOutput (s : State) (number bits cause : Nat) : State :=
  (s.emit 0x7204 255 [number, bits, cause]).bump 0x7200 0x0B

/-- The flatten completed since the last boundary comes into use (R223). -/
def State.takeFlatten (s : State) : State × Bool :=
  match s.comp.flattenReady with
  | none => (s, false)
  | some ms =>
    let s := { s with comp := { s.comp with flattenReady := none, below := s.comp.backBelow, above := s.comp.backAbove } }
    let s := s.bump 0x7200 0x0D
    (s.emit 0x7206 255 [s.nat 0x7200 0x0D, ms], true)

/-- Readiness is checked and flatten results come into use at a boundary (R219 to R223); true with a new flatten. -/
def State.boundaryChecks (s : State) : State × Bool :=
  let s : State := { s with planes := s.planes.map Plane.adopt }
  let ready := (List.finRange 8).map fun k => s.groupReady k
  let s := State.foldFin 8 s fun k s => s.checkPlane k (ready.getD k.val false)
  (State.foldFin 8 s fun k s => s.feedPlane k).takeFlatten

/-- The pictures of the dynamic planes, in plane order. -/
def State.shownPlanes (s : State) : List Placed := (List.finRange 8).flatMap fun k => s.planes[k].placed k.val

/-- Planes of which a shown buffer has lost a line-group (R225). -/
def State.lostBits (s : State) : Nat :=
  ofBits ((List.range 8).map fun k => s.shownPlanes.any fun p => p.plane == k && p.buf.bad)

/-- Camera FrameNumber shown in a plane, low 16 bits (Table 10.2). -/
def Plane.sourceFrame (x : Plane) : Nat :=
  if 1 ≤ x.cfg.source ∧ x.cfg.source ≤ 5 then ((x.shown.map (·.frame)).getD 0) % 65536 else 0

/-- The pictures that an output line is blended from: the flatten cache's regions around the dynamic planes, without the
region's line-group that a read error has made transparent (R223, R225). -/
def State.pictures (s : State) (lost : Option Nat) (y : Nat) : List Placed :=
  let keep := fun (region : Nat) (l : List Placed) => if lost == some (2 * (y / 8) + region) then [] else l
  keep 0 s.comp.below ++ s.shownPlanes ++ keep 1 s.comp.above

/-- The line-group of the flatten cache that a read error hit: which one is a free value, since no rule gives the cache
addresses. -/
def State.lostCache (s : State) : State × Option Nat :=
  if s.comp.cacheError then let r := s.takeFree; (r.2, some (r.1 % (2 * (s.comp.height / 8 + 1)))) else (s, none)

/-- Output frame n as blended now, with its metadata (R222 to R225). -/
def State.blendFrame (s : State) (n : Nat) (flattenNew : Bool) (lost : Option Nat) : OutFrame :=
  { stale := s.planeBits (·.stale), transparent := s.planeBits (·.transparent), badPlanes := s.lostBits
    flattenNew := flattenNew, bad := s.lostBits != 0 || s.comp.cacheError, number := n
    seconds := s.deviceTime.1, nanos := s.deviceTime.2, layer := s.layerNow
    sources := s.planes.toList.map Plane.sourceFrame
    pixels := compose s.comp.width s.comp.height (s.nat 0x7200 8) (s.pictures lost) }

/-- A blended frame is recorded where it is bad, and written unless write-back is held (R224, R225). -/
def State.writeFrame (s : State) (f : OutFrame) : State :=
  let s := if f.bad then s.badOutput f.number f.badPlanes (if f.badPlanes = 0 then 2 else 1) else s
  let s := if s.comp.cacheError then ({ s with comp := { s.comp with cacheError := false } } : State).startFlatten else s
  if s.comp.writebackHeld then s
  else { s with comp := { s.comp with ring := (f :: s.comp.ring).take (s.nat 0x7200 9) } }

/-- OUTPUT_FRAME_BOUNDARY: commits take effect, readiness is checked, the frame is blended and written with its
metadata (R219 to R225). Under throttle stage 1 every second frame is composed. -/
def execOutputFrameBoundary (s : State) : Out :=
  if !imagingRuns s.modState then .next s
  else
    let f := s.boundaryChecks
    let n := f.1.comp.frameNumber + 1
    let s := ({ f.1 with comp := { f.1.comp with frameNumber := n } } : State).put 0x7200 0x0A (n : Int)
    let skip := s.comp.skip && decide (2 ≤ s.supply.level)
    let s : State := { s with comp := { s.comp with skip := !skip } }
    if skip then .next s
    else
      let r := s.lostCache
      .next (r.1.writeFrame (r.1.blendFrame n f.2 r.2))

/-- Metadata of an output frame (Table 10.2). -/
def OutFrame.metaBytes (f : OutFrame) : Bytes :=
  let b := leBytes 2 0x464F ++ leBytes 1 f.stale ++ leBytes 1 f.transparent ++ leBytes 1 f.badPlanes
    ++ leBytes 1 (b2n f.bad + 2 * b2n f.resumed + 4 * b2n f.flattenNew) ++ leBytes 2 0 ++ leBytes 8 f.number
    ++ leBytes 8 f.seconds ++ leBytes 4 f.nanos ++ leBytes 4 f.layer
    ++ ((List.range 8).flatMap fun i => leBytes 2 (f.sources.getD i 0)) ++ List.replicate 12 0
  b ++ leBytes 4 (crc32c b)

/-- PLANE_TRANSPARENT: after StaleLimit consecutive stale checks (R221). -/
def execPlaneTransparent (k : PlaneId) (s : State) : Out :=
  let x := s.planes[k]
  if x.transparent || x.staleRun < x.cfg.staleLimit || !x.stale then .next s
  else .next ((s.modPlane k fun x => { x with transparent := true }).emit 0x7201 255 [k.val, x.staleRun])

/-- OUT_COMMIT (R224); an accepted commit of the output is flattened anew (R223). -/
def execOutCommit (q : Sess) (v : Byte) (s : State) : Out :=
  .next <| s.host q 0x7200 6 v.toNat fun s =>
    if v ≠ 1 then refused s 0x0201
    else
      let g := s.nat 0x7200
      if g 5 < 25000 ∨ 300000 < g 5 then s.commitStatus 0x7200 7 32 0x0702
      else if g 3 < g 1 + 16 ∨ g 4 < g 2 + 16 then s.commitStatus 0x7200 7 32 0x0203
      else
        let s := { s with comp := { s.comp with width := g 1, height := g 2, hTotal := g 3, vTotal := g 4, clock := g 5 } }
        (s.startFlatten).commitStatus 0x7200 7 32 0

/-- REFLATTEN (R223). -/
def execReflatten (q : Sess) (v : Byte) (s : State) : Out :=
  .next <| s.host q 0x7200 0x0C v.toNat fun s =>
    if v.toNat > 1 then refused s 0x0201 else accepted (if v = 1 then s.startFlatten else s)

/-- A static plane as flattened now. -/
def State.flattenPlane (s : State) (k : PlaneId) : List Placed :=
  let c := s.planeAhead k
  match s.memorySource c with
  | some i => [{ plane := k.val, x := c.dstX, y := c.dstY, alpha := c.alpha, buf := s.scaleImage k.val c i [] }]
  | none => []

/-- Every static plane with a memory buffer is read; the first page that is not mapped faults. -/
def State.readStatic (s : State) : List PlaneId → State × Bool
  | [] => (s, true)
  | k :: t =>
    if !(s.planeAhead k).static then s.readStatic t
    else
      match s.readPlane (s.planeAhead k) with
      | (s, none) => (s, false)
      | (s, some _) => s.readStatic t

/-- FLATTEN_DONE: the buffer not in use holds the static planes below and above the dynamic ones (R223); with no
dynamic plane all lie below. A translation fault holds the flatten (R165). -/
def execFlattenDone (s : State) : Out :=
  match s.comp.flattenRun with
  | none => .next s
  | some t =>
    let r := s.readStatic (List.finRange 8)
    if !r.2 then .next r.1
    else
    let s := r.1
    let firstDyn : Option Nat := ((List.finRange 8).find? fun k => (s.planeAhead k).dynamic).map (·.val)
    let static : List PlaneId := (List.finRange 8).filter fun k => (s.planeAhead k).static
    let low := static.filter fun k => decide (k.val < firstDyn.getD 8)
    let high := static.filter fun k => decide (firstDyn.getD 8 < k.val)
    .next { s with comp := { s.comp with
      flattenRun := none, flattenReady := some ((s.tick - t) / 80000)
      backBelow := low.flatMap s.flattenPlane, backAbove := high.flatMap s.flattenPlane } }

/-- The newest written frame changed. -/
def State.modFrame (s : State) (f : OutFrame → OutFrame) : State :=
  { s with comp := { s.comp with ring := match s.comp.ring with | x :: t => f x :: t | [] => [] } }

/-- WRITEBACK_FAULT: the frame's write-back is held, or the frame is bad where the fault is unresolvable (R225). -/
def execWritebackFault (unresolvable : Bool) (s : State) : Out :=
  if unresolvable then
    let s := s.modFrame fun f => { f with bad := true }
    let s := { s with comp := { s.comp with writebackHeld := false } }
    match s.comp.ring with
    | x :: _ => .next (s.badOutput x.number x.badPlanes 3)
    | [] => .next s
  else .next { s with comp := { s.comp with writebackHeld := true } }

/-- The held frame completes from Progress and carries WRITEBACK_RESUMED (R225). -/
def State.resumeWriteback (s : State) : State :=
  if s.comp.writebackHeld then
    { (s.modFrame fun f => { f with resumed := true }) with comp := { (s.modFrame fun f => { f with resumed := true }).comp with writebackHeld := false } }
  else s

/-- Link combinations in order of falling capacity, lanes and rate code (R227). -/
def dpOrder : List (Nat × Nat) :=
  [(4, 0x14), (4, 0x0A), (2, 0x14), (4, 0x06), (2, 0x0A), (1, 0x14), (2, 0x06), (1, 0x0A), (1, 0x06)]

/-- Lane rate in kb/s of a rate code: DisplayPort's rates are 270 Mb/s times the code. -/
def dpRate (code : Nat) : Nat := 270000 * code

/-- DpStatus changes: record 0x7205 (R227). -/
def State.dpStatus (s : State) (status lanes rate : Nat) : State :=
  let old := s.nat 0x7210 2
  let s := ((s.put 0x7210 2 status).put 0x7210 3 lanes).put 0x7210 4 rate
  if old = status then s else s.emit 0x7205 255 [status, lanes, rate]

/-- Train the link: the first combination that trains; idle pattern where it is too slow (R227). -/
def State.dpTrain (s : State) (trains : List (Nat × Nat)) : State :=
  match dpOrder.find? fun x => trains.contains x with
  | some (n, r) =>
    let s := { s with comp := { s.comp with retryAt := none } }
    s.dpStatus (if s.comp.clock * 24 * 10 ≤ n * dpRate r * 8 then 2 else 3) n r
  | none => ({ s with comp := { s.comp with retryAt := some (s.tick + 80000000) } } : State).dpStatus 1 0 0

/-- DP_HPD: HPD rises and the link is trained and the EDID read, or falls (R226, R227). -/
def execDpHpd (high : Bool) (trains : List (Nat × Nat)) (edid : Bytes) (s : State) : Out :=
  let rose := high && !s.comp.hpd
  let s := { s with comp := { s.comp with hpd := high } }
  if !high then .next (({ s with comp := { s.comp with retryAt := none } } : State).dpStatus 0 0 0)
  else if !rose then .next s
  else
    let s := s.putBlob 0x7210 5 edid
    if s.nat 0x7210 1 = 1 && imagingRuns s.modState then .next (s.dpTrain trains) else .next s

/-- The main link carries pictures (R227, R234): off in the other states, the idle pattern while the link is too slow. -/
def State.mainLink (s : State) : Bool := imagingRuns s.modState && s.nat 0x7210 1 == 1 && s.nat 0x7210 2 == 2

/-- DP_RETRAIN: a failed link is trained again, every 1 s while HPD is high (R227); one whose HPD rose before the module
ran is trained. -/
def execDpRetrain (trains : List (Nat × Nat)) (s : State) : Out :=
  let due := match s.comp.retryAt with | some t => decide (t ≤ s.tick) | none => true
  if s.comp.hpd && s.nat 0x7210 1 = 1 && imagingRuns s.modState && due then .next (s.dpTrain trains) else .next s

end Sys2Proof.Machine
end

