-- ==== Sys2Proof/Machine/CheckCode.lean ====
section
/-!
DEFINITION. The Reed-Solomon code of a memory line (R311, R312): GF(2⁸), syndromes, and the decoder as the search
for an admissible error pattern with the syndromes seen.
-/
namespace Sys2Proof.Machine

/-- Multiply by α in GF(2⁸) with polynomial x⁸ + x⁴ + x³ + x² + 1. -/
def gfDouble (a : Nat) : Nat := if 128 ≤ a then (2 * a) ^^^ 0x11D else 2 * a

/-- Product in GF(2⁸), over the 8 bits of b. -/
def gfMulFrom : Nat → Nat → Nat → Nat
  | 0, _, _ => 0
  | f + 1, a, b => (if b % 2 = 1 then a else 0) ^^^ gfMulFrom f (gfDouble a) (b / 2)

def gfMul (a b : Nat) : Nat := gfMulFrom 8 a b

/-- Power in GF(2⁸). -/
def gfPow (a : Nat) : Nat → Nat
  | 0 => 1
  | n + 1 => gfMul a (gfPow a n)

/-- Inverse of a non-zero element: a²⁵⁴. -/
def gfInv (a : Nat) : Nat :=
  let a2 := gfMul a a
  let a4 := gfMul a2 a2
  let a8 := gfMul a4 a4
  let a16 := gfMul a8 a8
  let a32 := gfMul a16 a16
  let a64 := gfMul a32 a32
  gfMul (gfMul (gfMul a64 a64) (gfMul a64 a32)) (gfMul (gfMul a16 a8) (gfMul a4 a2))

/-- Syndromes of an error pattern: its value at α⁰ to α⁷, symbol i the coefficient of xⁱ (row 20). -/
def syndromes (e : List (Nat × Nat)) : List Nat :=
  (List.range 8).map fun j => e.foldl (fun acc (x : Nat × Nat) => acc ^^^ gfMul x.2 (gfPow 2 (x.1 * j % 255))) 0

/-- Subtract a multiple of one row from another. -/
def gfRowSub (m : Nat) (a b : List Nat) : List Nat := (a.zip b).map fun (x : Nat × Nat) => x.1 ^^^ gfMul m x.2

/-- Gauss elimination: rows of coefficients with the right side last, one unknown per step; the solved rows. -/
def gfEliminate : Nat → Nat → List (List Nat) → List (List Nat) → Option (List (List Nat) × List (List Nat))
  | 0, _, done, rest => some (done, rest)
  | f + 1, c, done, rest =>
    match rest.find? fun r => r.getD c 0 != 0 with
    | none => none
    | some p =>
      let inv := gfInv (p.getD c 0)
      let p := p.map (gfMul inv)
      let clear := fun (r : List Nat) => gfRowSub (r.getD c 0) r p
      gfEliminate f (c + 1) (done.map clear ++ [p]) ((rest.erase (rest.find? (fun r => r.getD c 0 != 0) |>.getD [])).map clear)

/-- The error values at given positions that have the syndromes seen, if there are such. -/
def errorsAt (syn : List Nat) (pos : List Nat) : Option (List (Nat × Nat)) :=
  let rows := (List.range 8).map fun j => (pos.map fun i => gfPow 2 (i * j % 255)) ++ [syn.getD j 0]
  match gfEliminate pos.length 0 [] rows with
  | none => none
  | some (done, rest) =>
    if rest.all fun r => r.getD pos.length 0 == 0 then
      some ((pos.zip (done.map fun r => r.getD pos.length 0)).filter fun x => x.2 != 0)
    else none

/-- Device of a symbol (R311). -/
def symbolDevice (i : Nat) : Nat := i / 4

/-- Outcome of a decode: no error, corrected by a pattern, or uncorrectable. -/
inductive Decoded where
  | clean
  | corrected (pattern : List (Nat × Nat))
  | bad
  deriving DecidableEq, Repr

/-- Sets of positions the decoder admits: one device; with a marked device its 4 symbols and up to 2 others (R311,
R312). -/
def admissible (marked : Option (Fin 18)) : List (List Nat) :=
  let device := fun (d : Nat) => [4 * d, 4 * d + 1, 4 * d + 2, 4 * d + 3]
  match marked with
  | none => (List.range 18).map device
  | some d =>
    let others := (List.range 72).filter fun i => symbolDevice i != d.val
    others.flatMap fun i => (others.filter fun j => decide (i < j)).map fun j => device d.val ++ [i, j]

/-- Decode a line that reads with an error pattern (R311, R312): a pattern over two devices is found uncorrectable
unless it happens to look like an admissible one. -/
def decodeLine (marked : Option (Fin 18)) (e : List (Nat × Nat)) : Decoded :=
  let syn := syndromes e
  if syn.all (· == 0) then .clean
  else
    match (admissible marked).findSome? (errorsAt syn) with
    | some p => .corrected p
    | none => .bad

end Sys2Proof.Machine
end

