-- ==== Sys2Proof/Machine/Dram.lean ====
section
/-!
DEFINITION. Working memory (R304 to R316): address map, refresh, neighbour refresh, corrected and uncorrectable
reads, marks, scrub, and the request queues.
-/
namespace Sys2Proof.Machine

/-- Column of a physical address, with col[2:0] 0 (Table 14.1). -/
def mapColumn (order pa : Nat) : Nat :=
  8 * (match order with | 1 => field pa 12 6 | 2 => field pa 16 10 | _ => field pa 17 11)

/-- Put a bit into a number at a place, the bits above moving up. -/
def insertBit (n at_ b : Nat) : Nat := n % 2 ^ at_ + b * 2 ^ at_ + n / 2 ^ at_ * 2 ^ (at_ + 1)

/-- Line n of a channel: the inverse of the map on lines (R307). -/
def lineOf (order c n : Nat) : Nat :=
  let bit := match order with | 1 => 7 | 2 => 27 | _ => 0
  let l := insertBit n bit 0
  let own := (mapAddress order (64 * l)).1
  insertBit n bit (own ^^^ c)

/-- Working memory answers (R305, R316). -/
def State.memoryOn (s : State) (c : ChanId) : Bool := s.dram[c].trained == 1 && !s.dram[c].selfRefresh

/-- Lowest count in a bank's table of 64, 0 while an entry is free (R310). -/
def lowestCount (t : List (Nat × Nat)) : Nat :=
  if t.length < 64 then 0 else (t.map (·.2)).foldl min ((t.head?.map (·.2)).getD 0)

/-- Replace the first entry with a count. -/
def replaceCount (n : Nat) (x : Nat × Nat) : List (Nat × Nat) → List (Nat × Nat)
  | [] => [x]
  | y :: t => if y.2 = n then x :: t else y :: replaceCount n x t

/-- An activate of a row in a bank's table (R310). -/
def countActivate (t : List (Nat × Nat)) (row : Nat) : List (Nat × Nat) :=
  if t.any fun x => x.1 == row then t.map fun x => if x.1 = row then (row, x.2 + 1) else x
  else if t.length < 64 then t ++ [(row, 1)]
  else replaceCount (lowestCount t) (row, lowestCount t + 1) t

/-- The activate table of a bank, and the tables with it changed. -/
def Dram.table (d : Dram) (bank : Nat) : List (Nat × Nat) :=
  (d.counters.filter fun x => x.1 == bank).map fun (x : Nat × Nat × Nat) => x.2

def Dram.withTable (d : Dram) (bank : Nat) (t : List (Nat × Nat)) : Dram :=
  { d with counters := (d.counters.filter fun x => x.1 != bank) ++ t.map fun (x : Nat × Nat) => (bank, x) }

/-- Open a row: an activate unless it is the bank's open row (R310). -/
def Dram.activate (d : Dram) (bank row : Nat) : Dram :=
  if d.openRows.contains (bank, row) then d
  else
    { (d.withTable bank (countActivate (d.table bank) row)) with
      openRows := (bank, row) :: d.openRows.filter fun x => x.1 != bank }

/-- The nibble places of a symbol in a line: low nibble in beat 2h, high nibble in beat 2h + 1 (R311). -/
def xorSymbol (b : Bytes) (x : Nat × Nat) : Bytes :=
  let d := x.1 / 4
  let h := x.1 % 4
  if 16 ≤ d then b
  else
    let put := fun (b : Bytes) (beat v : Nat) =>
      let i := 8 * beat + d / 2
      b.set i (b.getD i 0 ^^^ BitVec.ofNat 8 (v * 16 ^ (d % 2)))
    put (put b (2 * h) (x.2 % 16)) (2 * h + 1) (x.2 / 16)

/-- A corrected line (R312, R313): counted, attributed to a device, recorded at most once per second. -/
def State.corrected (s : State) (c : ChanId) (line : Nat) (pattern : List (Nat × Nat)) : State :=
  let marked := (s.dram[c].marked.map fun (d : Fin 18) => d.val)
  let devices := ((pattern.map fun (x : Nat × Nat) => symbolDevice x.1).eraseDups).filter fun d => marked != some d
  let s := (s.bump (0xC010 + c.val) 6).put (0xC010 + c.val) 10 (64 * line)
  let s := s.modDram c fun d =>
    { d with
      correctedSince := d.correctedSince + 1
      errLines := devices.foldl (fun l v => (v, line, s.tick) :: l.filter fun x => !(x.1 == v && x.2.1 == line)) d.errLines }
  let due : Bool := match s.dram[c].correctedAt with | some t => decide (t + 80000000 ≤ s.tick) | none => true
  match due with
  | true =>
    (s.emit 0xC102 255 [c.val, s.dram[c].correctedSince, 64 * line, devices.headD 255]).modDram c fun d =>
      { d with correctedAt := some s.tick, correctedSince := 0 }
  | false => s

/-- Read a line with an error pattern: its octets, or none where it is uncorrectable (R311 to R314). -/
def State.readLine (s : State) (c : ChanId) (line requester outcome : Nat) (errors : List (Fin 72 × Byte)) :
    State × Option Bytes :=
  if s.poisoned.contains line then (s.poison c line requester outcome, none)
  else
    let e := (errors.map fun (x : Fin 72 × Byte) => (x.1.val, x.2.toNat)).filter fun x => x.2 != 0
    let b := memReadN s.mem (64 * line) 64
    match decodeLine s.dram[c].marked e with
    | .clean => (s, some (e.foldl xorSymbol b))
    | .corrected p =>
      let b := p.foldl xorSymbol (e.foldl xorSymbol b)
      (({ s with mem := memWriteN s.mem (64 * line) b } : State).corrected c line p, some b)
    | .bad => (s.poison c line requester outcome, none)

/-- The consequence of an uncorrectable read for its requester where no other step carries it (Table 14.2). -/
def State.badRead (s : State) (line : Nat) (w : Requester) : State :=
  match w with
  | .unit .compositor => { s with comp := { s.comp with cacheError := true } }
  | .walker true => { s with poisoned := s.poisoned.filter (· != line) }
  | .walker false => s.enterSafe 0x0601 .mirror
  | _ => s

/-- Serve a request (R304, R314): a read of its line, a write of a whole line, or a read-modify-write. -/
def State.serve (s : State) (c : ChanId) (r : MemReq) : State :=
  let line := r.address / 64
  let (_, bank, row) := mapAddress s.mapOrder r.address
  let s := s.modDram c fun d => { (d.activate bank row) with bytesNow := d.bytesNow + 64 }
  let answer := fun (s : State) (st : Nat) (b : Bytes) => s.modDram c fun d => { d with response := (st, b) }
  match r.write with
  | none =>
    match s.readLine c line (requesterCode r.who) (requesterOutcome r.who) r.errors with
    | (s, some b) => answer s 0 b
    | (s, none) => answer (s.badRead line r.who) 0x0601 []
  | some w =>
    let o := r.address % 64
    let w := w.take (64 - o)
    if o = 0 && w.length = 64 then
      answer { s with mem := memWriteN s.mem (64 * line) w, poisoned := s.poisoned.filter (· != line) } 0 []
    else
      match s.readLine c line (requesterCode r.who) (requesterOutcome r.who) r.errors with
      | (s, some b) => answer { s with mem := memWriteN (memWriteN s.mem (64 * line) b) r.address w } 0 []
      | (s, none) => answer s 0x0601 []

/-- Request a goes before b (R315). -/
def MemReq.before (a b : MemReq) : Bool :=
  decide (a.cls < b.cls) || (a.cls == b.cls && (decide (a.arrived < b.arrived)
    || (a.arrived == b.arrived && decide (a.order < b.order))))

/-- The request served next. -/
def nextRequest (l : List MemReq) : Option MemReq :=
  l.foldl (fun (b : Option MemReq) x => match b with | none => some x | some y => some (if x.before y then x else y)) none

/-- Serve the next request of a channel that is not refreshing. -/
def State.serveNext (s : State) (c : ChanId) : State :=
  if s.tick < s.dram[c].busyUntil || !s.memoryOn c then s
  else
    match nextRequest s.dram[c].queue with
    | none => s
    | some r => (s.modDram c fun d => { d with queue := d.queue.erase r }).serve c r

/-- Class and place in the list of Table 14.4; `rt`: the fetch unit's engine has less than 20 ms buffered. -/
def requestClass (w : Requester) (rt : Bool) : Nat × Nat :=
  match w with
  | .unit .ledger => (0, 0)
  | .unit .fetch => if rt then (0, 1) else (1, 1)
  | .walker _ => (1, 0)
  | .unit .security => (1, 2)
  | .unit .spill => (1, 3)
  | .unit .camera => (2, 0)
  | .unit .compositor => (2, 1)
  | .unit .compression => (3, 0)
  | .unit .recorder => (3, 1)
  | .unit .dma => (3, 2)

/-- MEMORY_REQUEST: a request enters its channel's queue, and the channel serves the one that goes first (R315).
Without working memory, or for classes NORMAL and LOW in HOLDUP, it is refused with 0x0403 (R305, R316). An address
outside the 16 GiB does not exist (R304). -/
def execMemoryRequest (c : ChanId) (m : Requester) (rt : Bool) (address : Nat) (write : Option Bytes)
    (errors : List (Fin 72 × Byte)) (s : State) : Out :=
  if memSize ≤ address then .fault (.noSuchAddress address)
  else if (mapAddress s.mapOrder address).1 ≠ c.val then .next s
  else
    let k := requestClass m rt
    if !s.memoryOn c || (s.modState == .holdup && decide (2 ≤ k.1)) then
      .next (s.modDram c fun d => { d with response := (0x0403, []) })
    else
      let r : MemReq :=
        { who := m, cls := k.1, order := k.2, address := address, write := write, errors := errors, arrived := s.tick }
      .next ((s.modDram c fun d => { d with queue := d.queue ++ [r] }).serveNext c)

/-- AgeLimit in ticks, rounded up. -/
def State.ageTicks (s : State) : Nat := ceilDiv (s.nat 0xC000 7 * 2) 25

/-- A request after it has waited `lim` ticks: one class up, once. -/
def MemReq.aged (r : MemReq) (lim now : Nat) : MemReq :=
  if r.raised = false ∧ r.arrived + lim ≤ now ∧ 2 ≤ r.cls then { r with cls := r.cls - 1, raised := true } else r

/-- AGE_RAISE: requests that have waited AgeLimit go up one class, not beyond HIGH (R315). -/
def execAgeRaise (c : ChanId) (s : State) : Out :=
  .next (s.modDram c fun d => { d with queue := d.queue.map fun r => r.aged s.ageTicks s.tick })

/-- Ticks of a channel's refresh interval: 7.8 µs or 3.9 µs (R308). -/
def Dram.intervalTicks (d : Dram) : Nat := d.interval * 2 / 25

/-- REFRESH: the refreshes due are issued one at a time; up to 4 are postponed while RT requests wait, and up to 4
pulled in while the channel is idle (R308, R309). -/
def execRefresh (c : ChanId) (s : State) : Out :=
  if !s.memoryOn c then .next s
  else
    let d := s.dram[c]
    let n := if d.intervalTicks = 0 then 0 else (s.tick - d.lastRefresh) / d.intervalTicks
    let due := d.postponed + n
    let s := s.modDram c fun d => { d with postponed := due, lastRefresh := d.lastRefresh + n * d.intervalTicks }
    let rtWaits := d.queue.any fun r => r.cls == 0
    let issue := if 0 < due then !(rtWaits && decide (due ≤ 4)) else d.queue.isEmpty && decide (-4 < due)
    if issue then
      -- tRFC is 260 ns; every bank is precharged
      .next (s.modDram c fun d =>
        { d with postponed := due - 1, refreshes := d.refreshes + 1, busyUntil := s.tick + 21, openRows := [] })
    else .next s

/-- ZQ_SHORT: every 128 ms (R306). -/
def execZqShort (c : ChanId) (s : State) : Out :=
  if !s.memoryOn c || s.tick < s.dram[c].zqAt + msTicks 128 then .next s
  else .next (s.modDram c fun d => { d with zqAt := s.tick })

/-- NEIGHBOUR_REFRESH: a row whose count has reached NeighbourThreshold has the rows within BlastRadius refreshed, and
its count set to the lowest (R310). -/
def execNeighbourRefresh (c : ChanId) (bank : Fin 16) (row : BitVec 16) (s : State) : Out :=
  let d := s.dram[c]
  let reached : Bool := (d.table bank.val).any fun x => x.1 == row.toNat && decide (s.nat 0xC000 4 ≤ x.2)
  match reached with
  | false => .next s
  | true =>
    let r := s.nat 0xC000 5
    let near := (List.range (2 * r + 1)).filterMap fun (i : Nat) =>
      let n := row.toNat + i
      if i = r ∨ n < r ∨ 65536 ≤ n - r then none else some (n - r)
    .next ((s.modDram c fun d =>
      let d := near.foldl (fun d n => d.activate bank.val n) d
      let t := d.table bank.val
      { (d.withTable bank.val (t.map fun (x : Nat × Nat) => if x.1 = row.toNat then (x.1, lowestCount t) else x)) with
        openRows := d.openRows.filter fun x => x.1 != bank.val }).bump (0xC010 + c.val) 9)

/-- REFRESH_WINDOW_END: after 8,192 refresh intervals every table is cleared (R310). -/
def execRefreshWindowEnd (c : ChanId) (s : State) : Out :=
  if s.dram[c].refreshes < 8192 then .next s
  else .next (s.modDram c fun d => { d with refreshes := 0, counters := [] })

/-- Lines of a channel (R304). -/
def channelLines : Nat := 134217728

/-- Ticks from one line to the next with which a pass ends within ScrubPeriod (R313). -/
def State.scrubTicks (s : State) : Nat := s.nat 0xC000 3 * 3600 * 80000000 / channelLines

/-- PATROL_SCRUB: the next line of the channel is read, corrected or poisoned; record 0xC106 at the end of a pass
(R313, R314). In HOLDUP class LOW is refused (R316). -/
def execPatrolScrub (c : ChanId) (errors : List (Fin 72 × Byte)) (s : State) : Out :=
  if !s.memoryOn c || s.modState == .holdup then .next s
  else
    let n := s.dram[c].scrubLine
    let before := s.nat (0xC010 + c.val) 6
    let (t, r) := s.readLine c (lineOf s.mapOrder c.val n) 0xFE 0 errors
    let fixed := if t.nat (0xC010 + c.val) 6 = before then 0 else 1
    let t := t.modDram c fun d =>
      { d with scrubLine := n + 1, scrubAt := s.tick, scrubCorrected := d.scrubCorrected + fixed
               scrubBad := d.scrubBad + (if r.isNone then 1 else 0) }
    let d := t.dram[c]
    if d.scrubLine < channelLines then .next t
    else
      .next ((t.emit 0xC106 255 [d.scrubCorrected, d.scrubBad]).modDram c fun d =>
        { d with scrubLine := 0, scrubCorrected := 0, scrubBad := 0 })

/-- Lines with corrected errors of a device within 24 h (R312). -/
def State.errorLines (s : State) (c : ChanId) (d : Nat) : Nat :=
  (s.dram[c].errLines.filter fun x => x.1 == d && decide (s.tick < x.2.2 + 86400 * 80000000)).length

/-- DEVICE_MARKED: DeviceMarkThreshold lines of one device within 24 h mark it, here and in MRAM (R312). -/
def execDeviceMarked (c : ChanId) (d : Fin 18) (s : State) : Out :=
  let n := s.errorLines c d.val
  if s.dram[c].marked.isSome || n < s.nat 0xC000 6 then .next s
  else
    let s := s.modDram c fun x => { x with marked := some d }
    let s := { s with nv := { s.nv with marked := vmod s.nv.marked c fun _ => some d } }
    .next (((s.put (0xC010 + c.val) 8 d.val).emit 0xC104 255 [c.val, d.val, n]).noteFault 3)

/-- MARKED_DEVICE_CLEAR: only 0xFF may be written (Table 14.5). -/
def execMarkedDeviceClear (q : Sess) (c : ChanId) (v : Byte) (s : State) : Out :=
  .next <| s.host q (0xC010 + c.val) 8 v.toNat fun s =>
    if v ≠ 0xFF then refused s 0x0201
    else
      let s := s.modDram c fun x => { x with marked := none, errLines := [] }
      accepted (({ s with nv := { s.nv with marked := vmod s.nv.marked c fun _ => none } } : State).put (0xC010 + c.val) 8 0xFF)

/-- The refresh interval follows the channel's board sensor (R308): half from 80 °C rising until below 75 °C, and while
the sensor is excluded. -/
def State.refreshTemp (s : State) (c : ChanId) (temp : Int) (excluded : Bool) : State :=
  let d := s.dram[c]
  let want := if excluded || 8000 ≤ temp then 3900 else if temp < 7500 then 7800 else d.interval
  let s := s.modDram c fun d => { d with temp := temp, interval := want }
  if want = d.interval then s else s.emit 0xC105 255 [c.val, want, temp]

end Sys2Proof.Machine
end

