-- ==== Sys2Proof/Machine/Recorder.lean ====
section
/-!
DEFINITION. The event recorder (R330 to R339): numbering and staging, pages and erase blocks of the flash ring, the
mirror, snapshots and the data they read.
-/
namespace Sys2Proof.Machine

/-- Length of a record: 56 for a TimeAnchor, else some multiple of 8 from 24 to 512 (R330, R332; row 4). -/
def recordLen (type : Nat) : Nat := if type = 0xB001 then 56 else 24 + 8 * (Config.recordLength type % 62)

/-- Records of the audit trail (R373). -/
def isAudit (type : Nat) : Bool := areaOf type == 0xA || type == 0x1101 || type == 0x1102

/-- Octets of a list of records. -/
def recordsSize (l : List LogRec) : Nat := (l.map (·.length)).sum

/-- Octets of the staging area (R333). -/
def stagingSize : Nat := 262144

/-- States in which the recorder takes records: not where the module is off or held in a RESET other than that of R12,
not in BOOT, whose flush comes first, and not after MRAM writes have stopped (R336). -/
def State.recorderOn (s : State) : Bool :=
  s.modState != .off && s.modState != .boot && !(s.modState == .reset && s.supply.resetCause != 5) && !s.supply.mramStopped

/-- Number and stage a record (R331, R333). -/
def State.stage (s : State) (r : EvtRec) : State :=
  let n := s.nv.newest + 1
  let l : LogRec :=
    { sequence := n, length := recordLen r.type, audit := isAudit r.type, evt := r, stagedAt := s.tick }
  { s with
    mirrorNext := if s.mirrorNext = 0 then n else s.mirrorNext
    nv := { s.nv with staging := s.nv.staging ++ [l], newest := n, oldest := if s.nv.oldest = 0 then n else s.nv.oldest } }

/-- EVENT_RECORD_TAKEN: the record that stands first in Q_EVT is numbered and staged while staging has room (R331,
R335, R336). -/
def execEventRecordTaken (s : State) : Out :=
  match s.evtQ with
  | [] => .next s
  | r :: t =>
    if s.recorderOn = true ∧ recordsSize s.nv.staging + recordLen r.type ≤ stagingSize then
      .next ((({ s with evtQ := t } : State).freeCredit 10 (areaOf r.type)).stage r)
    else .next s

/-- Octets of records in a page of 16 KiB (R333). -/
def pageRoom : Nat := 16368

/-- The records of one page, whole and in order, and the rest (R333). -/
def pageSplit : Nat → List LogRec → List LogRec × List LogRec
  | _, [] => ([], [])
  | room, r :: t => if r.length ≤ room then let x := pageSplit (room - r.length) t; (r :: x.1, x.2) else ([], r :: t)

/-- A program or an erase may start (R336). -/
def flashAllowed : ModState → Bool
  | .off | .reset | .holdup | .thermalOff => false
  | _ => true

/-- The block being written changed. -/
def modLast (f : FlashBlock → FlashBlock) : List FlashBlock → List FlashBlock
  | [] => []
  | [b] => [f b]
  | b :: t => b :: modLast f t

/-- Blocks in the ring that hold or held records. -/
def NonVol.ringUsed (v : NonVol) : Nat := v.ring.length + v.deferred.length

/-- A block is retired: the reserve gives another, or the ring shrinks (R334). Operation 0 erase, 1 program. -/
def State.retire (s : State) (slot operation : Nat) : State :=
  let s := { s with nv :=
    if s.nv.reserve = 0 then { s.nv with blocksInService := s.nv.blocksInService - 1 }
    else { s.nv with reserve := s.nv.reserve - 1 } }
  s.emit 0xB105 255 [slot, operation, s.nv.blocksInService + s.nv.reserve]

/-- The block that the writer enters after a slot. -/
def nextSlot (slot : Nat) : Nat := if 1024 ≤ slot then 0 else (slot + 1) % 1024

/-- The writer enters the next block when 16 pages are written; the block after it must then be erased (R334). -/
def State.enterBlock (s : State) : State :=
  match s.nv.ring.getLast? with
  | none => s
  | some b =>
    if b.pages < 16 then s
    else
      let ring := s.nv.ring ++ [{ slot := nextSlot b.slot }]
      { s with nv := { s.nv with ring := ring, eraseDue := decide (s.nv.blocksInService ≤ ring.length + s.nv.deferred.length) } }

/-- Program the page that the staged records make up (R333); a second failure retires the block, whose records the
replacement keeps (row 21). -/
def State.programPage (s : State) (ok : Bool) : State :=
  let (now, later) := pageSplit pageRoom s.nv.staging
  if ok then
    ({ s with nv := { s.nv with
        staging := later
        ring := modLast (fun b => { b with records := b.records ++ now, pages := b.pages + 1, programFails := 0 }) s.nv.ring } } : State).enterBlock
  else
    let s := { s with nv := { s.nv with ring := modLast (fun b => { b with programFails := b.programFails + 1 }) s.nv.ring } }
    match s.nv.ring.getLast? with
    | some b =>
      if b.programFails < 2 then s
      else
        let s := { s with nv := { s.nv with ring := modLast (fun b => { b with programFails := 0 }) s.nv.ring } }
        s.retire b.slot 1
    | none => s

/-- The writer has an erased block to write into. -/
def State.mayProgram (s : State) : Bool := flashAllowed s.modState && decide (s.nv.ringUsed ≤ s.nv.blocksInService)

/-- PAGE_PROGRAM: the staged records fill a page, and it is programmed (R333, R334). -/
def execPageProgram (ok : Bool) (s : State) : Out :=
  if s.mayProgram && decide (pageRoom ≤ recordsSize s.nv.staging) then .next (s.programPage ok) else .next s

/-- FlushInterval has passed since the oldest unflushed record was staged (R333, R27). -/
def State.flushDue (s : State) : Bool :=
  match s.nv.staging with
  | r :: _ => decide (r.stagedAt + msTicks (s.nat 0xB000 7) ≤ s.tick)
  | [] => false

/-- FLUSH_INTERVAL: a partial page is programmed (R333). -/
def execFlushInterval (ok : Bool) (s : State) : Out :=
  if s.mayProgram && s.flushDue then .next (s.programPage ok) else .next s

/-- First and last sequence of a block. -/
def FlashBlock.first (b : FlashBlock) : Nat := ((b.records.head?).map (·.sequence)).getD 0
def FlashBlock.last (b : FlashBlock) : Nat := ((b.records.getLast?).map (·.sequence)).getD 0

/-- A snapshot is open (Table 16.6). -/
def Snapshot.isOpen (x : Snapshot) : Bool := x.status == 1 || x.status == 2

/-- The open snapshots. -/
def State.openSnaps (s : State) : List Snapshot :=
  s.sessions.toList.filterMap fun (x : Option Session) =>
    match x with
    | some y => if y.snap.isOpen then some y.snap else none
    | none => none

/-- An open snapshot holds records of a block in its range (R338). -/
def State.defers (s : State) (b : FlashBlock) : Bool :=
  !b.records.isEmpty && s.openSnaps.any fun x => decide (x.first ≤ b.last) && decide (b.first ≤ x.last)

/-- The head of area-0xA bodies where no session acts (R373). -/
def auditNone : List Int := [255, 0, 255, 0]

/-- Unacknowledged audit records of a block. -/
def State.unacked (s : State) (b : FlashBlock) : List LogRec :=
  b.records.filter fun r => r.audit && decide (s.nv.auditAck < r.sequence)

/-- The records of an erased block go: OldestSequence advances, and lost audit records are counted (R334, R373). -/
def State.blockGone (s : State) (b : FlashBlock) : State :=
  let s := if b.records.isEmpty then s else { s with nv := { s.nv with oldest := b.last + 1 } }
  let s := match (s.unacked b).head?, (s.unacked b).getLast? with
    | some x, some y =>
      ({ s with nv := { s.nv with auditLost := s.nv.auditLost + 1 } } : State).emit 0xB104 255 [x.sequence, y.sequence]
    | _, _ => s
  match (((s.nv.deferred ++ s.nv.ring).take 64).flatMap s.unacked).head? with
  | some r => s.emit 0xA10D 255 (auditNone ++ [(r.sequence : Int)])
  | none => s

/-- Snapshots that begin in an erased range are truncated (R338). -/
def State.truncateSnaps (s : State) (b : FlashBlock) : State :=
  State.foldFin 16 s fun q s =>
    match s.sessions[q] with
    | some x =>
      if x.snap.isOpen && decide (x.snap.first ≤ b.last) && decide (b.first ≤ x.snap.last) then
        (s.modSession q fun y => { y with snap := { y.snap with first := b.last + 1, status := 2 } }).emit 0xB103 q.val
          [q.val, x.snap.first, b.last + 1]
      else s
    | none => s

/-- Erase a deferred block: back to the reserve once the ring holds 1,024 blocks without it (R338). -/
def State.eraseDeferred (s : State) (b : FlashBlock) (ok : Bool) : State :=
  let s := { s with nv := { s.nv with deferred := s.nv.deferred.drop 1 } }
  let s := s.blockGone b
  if !ok then s.retire b.slot 0
  else if 1024 < s.nv.blocksInService then
    { s with nv := { s.nv with blocksInService := s.nv.blocksInService - 1, reserve := s.nv.reserve + 1 } }
  else s

/-- Erase the oldest block of the ring, or defer it for a snapshot (R334, R338). -/
def State.eraseOldest (s : State) (b : FlashBlock) (ok : Bool) : State :=
  let dropped := { s.nv with ring := s.nv.ring.drop 1, eraseDue := false }
  if s.defers b then
    if 0 < s.nv.reserve then
      { s with nv := { dropped with
          deferred := s.nv.deferred ++ [b], reserve := s.nv.reserve - 1, blocksInService := s.nv.blocksInService + 1 } }
    else
      let all := s.nv.deferred ++ [b]
      let v := all.headD {}
      (({ s with nv := { dropped with deferred := all.drop 1 } } : State).truncateSnaps v).blockGone v
  else
    let s := ({ s with nv := dropped } : State).blockGone b
    if ok then s else s.retire b.slot 0

/-- RING_BLOCK_ERASE: deferred blocks that no snapshot needs any longer go first; else the oldest block when the
writer has entered the last erased one (R334, R338). -/
def execRingBlockErase (ok : Bool) (s : State) : Out :=
  if !flashAllowed s.modState then .next s
  else
    match s.nv.deferred with
    | b :: _ =>
      if !(s.nv.deferred.any s.defers) then .next (s.eraseDeferred b ok)
      else
        match s.nv.eraseDue, s.nv.ring with
        | true, x :: _ :: _ => .next (s.eraseOldest x ok)
        | _, _ => .next s
    | [] =>
      match s.nv.eraseDue, s.nv.ring with
      | true, x :: _ :: _ => .next (s.eraseOldest x ok)
      | _, _ => .next s

/-- Every record that flash and staging hold, in Sequence order. -/
def State.allRecords (s : State) : List LogRec :=
  (s.nv.deferred ++ s.nv.ring).flatMap (·.records) ++ s.nv.staging

/-- Keep the newest records that fit a size. -/
def trimMirror (size : Nat) : List LogRec → List LogRec
  | [] => []
  | r :: t => if recordsSize (r :: t) ≤ size then r :: t else trimMirror size t

/-- MIRROR_WRITE: the next record in Sequence order is copied to the mirror (R337). -/
def execMirrorWrite (s : State) : Out :=
  if s.mirrorHeld || s.mirrorNext = 0 || !s.memoryOn 0 || !s.memoryOn 1 || !flashAllowed s.modState then .next s
  else
    match s.allRecords.find? fun r => r.sequence == s.mirrorNext with
    | none => .next s
    | some r =>
      .next { s with mirror := trimMirror (s.nv.mirrorSize * 1048576) (s.mirror ++ [r]), mirrorNext := s.mirrorNext + 1 }

/-- The record that an unresolvable fault holds is skipped, and its gap recorded (R337). -/
def State.mirrorGap (s : State) : State :=
  if s.mirrorHeld then
    ({ s with mirrorHeld := false, mirrorNext := s.mirrorNext + 1 } : State).emit 0xB102 255 [s.mirrorNext, s.mirrorNext]
  else s

/-- Flags of a record (Table 16.1). -/
def LogRec.flags (r : LogRec) : Nat := 128 * b2n r.audit + 64 * b2n r.recovered

/-- Body of a TimeAnchor (Table 16.3). -/
def anchorBody (l : List Int) : Bytes :=
  let v := fun (i : Nat) => (l.getD i 0).toNat
  leBytes 8 (v 0) ++ leBytes 8 (v 1) ++ leBytes 4 (v 2) ++ leBytes 1 (v 3) ++ leBytes 1 (v 4) ++ leBytes 2 0
    ++ leBytes 4 (v 5) ++ leBytes 4 (v 6) ++ leBytes 4 0

/-- The octets of a record (R330). -/
def LogRec.bytes (r : LogRec) : Bytes :=
  let body := if r.evt.type = 0xB001 then anchorBody r.evt.body else Config.recordBody r.evt.type r.evt.body
  let n := r.length - 20
  let b := leBytes 2 r.length ++ leBytes 2 r.evt.type ++ leBytes 2 r.evt.lost ++ leBytes 1 r.flags ++ leBytes 1 r.evt.source
    ++ leBytes 8 r.sequence ++ ((body ++ List.replicate n 0).take n)
  b ++ leBytes 4 (crc32c b)

/-- The compatibility prefix of a record from the last anchor (Table 16.4). -/
def prefixBytes (r : LogRec) (hours cycles : Nat) : Bytes :=
  leBytes 2 0x5131 ++ leBytes 2 (r.length + 16) ++ leBytes 4 hours ++ leBytes 4 cycles ++ leBytes 4 0

/-- The records with their prefixes: the anchor's values are carried along the ring (R339). -/
def snapBytes (compat : Bool) (keep : LogRec → Bool) : List LogRec → Nat → Nat → Bytes
  | [], _, _ => []
  | r :: t, h, c =>
    let h' := if r.evt.type = 0xB001 then (r.evt.body.getD 5 0).toNat else h
    let c' := if r.evt.type = 0xB001 then (r.evt.body.getD 6 0).toNat else c
    (if keep r then (if compat then prefixBytes r h' c' else []) ++ r.bytes else []) ++ snapBytes compat keep t h' c'

/-- A record belongs to the data of a snapshot (R339). -/
def Snapshot.keeps (x : Snapshot) (r : LogRec) : Bool :=
  decide (x.first ≤ r.sequence) && decide (r.sequence ≤ x.last)
    && (r.evt.type == 0xB001 || bitOf x.areaMask (areaOf r.evt.type))

/-- SnapData (R339). What a prefix carries where no anchor precedes its record is a free value. -/
def State.snapData (s : State) (x : Snapshot) : Bytes :=
  snapBytes (s.nat 0xB000 9 == 1) x.keeps s.allRecords (Config.freeNat s.free % 2 ^ 32) (Config.freeNat s.free % 2 ^ 32)

/-- TotalLength of SnapData, without building it (R339). -/
def State.snapTotal (s : State) (x : Snapshot) : Nat :=
  ((s.allRecords.filter x.keeps).map fun r => r.length + (if s.nat 0xB000 9 = 1 then 16 else 0)).sum

/-- A snapshot opens, replacing the session's own (R338). -/
def State.openSnap (s : State) (q : Sess) (x : Session) : State × Nat :=
  let mine := if x.snap.isOpen then 1 else 0
  if 4 ≤ s.openSnaps.length - mine then refused s 0x0402
  else if x.snap.toSeq < x.snap.fromSeq ∨ s.nv.newest < x.snap.fromSeq then refused s 0x0201
  else
    let y := { x.snap with
      status := 1, openedAt := s.tick, first := max x.snap.fromSeq s.nv.oldest, last := min x.snap.toSeq s.nv.newest }
    accepted (s.modSession q fun z => { z with snap := { y with total := s.snapTotal y } })

/-- A write to SnapOpen (R338). -/
def State.writeSnap (s : State) (q : Sess) (v : Nat) : State × Nat :=
  match s.sessions[q] with
  | none => refused s 0x0201
  | some x =>
    if v = 1 then s.openSnap q x
    else if v = 0 then accepted (s.modSession q fun z => { z with snap := { z.snap with status := 0 } })
    else refused s 0x0201

/-- SNAP_OPEN: a write of 1 to SnapOpen (R338). -/
def execSnapOpen (q : Sess) (v : Byte) (s : State) : Out :=
  .next <| s.host q 0xB010 4 v.toNat fun s => s.writeSnap q v.toNat

/-- SNAP_CLOSE: a write of 0 to SnapOpen (R338). -/
def execSnapClose (q : Sess) (v : Byte) (s : State) : Out :=
  .next <| s.host q 0xB010 4 v.toNat fun s => s.writeSnap q v.toNat

/-- SNAP_HOLD_EXPIRY: a snapshot open for SnapHold closes with SnapStatus 0x03 (R338, R27). -/
def execSnapHoldExpiry (q : Sess) (s : State) : Out :=
  match s.sessions[q] with
  | none => .next s
  | some x =>
    if x.snap.isOpen = true ∧ x.snap.openedAt + msTicks (1000 * s.nat 0xB010 9) ≤ s.tick then
      .next (s.modSession q fun z => { z with snap := { z.snap with status := 3 } })
    else .next s

/-- The flush of BOOT: staged records go to flash with RECOVERED; the model stages a record whole, so none is found
incomplete (R336). -/
def State.recoverStaging (s : State) : State :=
  let n := s.nv.staging.length
  if n = 0 then s
  else
    let s := { s with nv := { s.nv with staging := s.nv.staging.map fun r => { r with recovered := true } } }
    let s := (List.range 17).foldl (fun (s : State) _ => if s.nv.staging.isEmpty then s else s.programPage true) s
    s.emit 0xB101 255 [n, 0]

end Sys2Proof.Machine
end

