-- ==== Sys2Proof/Machine/Compression.lean ====
section
/-!
DEFINITION. The compression engine (R321 to R328): submission, chunks with their self-check and stored fall-back,
and cancelling.
-/
namespace Sys2Proof.Machine

/-- Octets of n source bytes in stored form: 5 of framing for each 65,535 (R321, R323). -/
def storedSize (n : Nat) : Nat := n + 5 * ceilDiv n 65535

/-- The worst-case output of a block: B(n) of R321. -/
def chunkBound (n : Nat) : Nat := ceilDiv (16 + storedSize n) 8 * 8

/-- The sum of B(n) over the blocks of a job. -/
def jobBound (length size : Nat) : Nat :=
  length / size * chunkBound size + (if length % size = 0 then 0 else chunkBound (length % size))

/-- The stored form of a block: stored DEFLATE blocks, full but for the last (R323). -/
def storedFrom : Nat → Bytes → Bytes
  | 0, _ => []
  | f + 1, b =>
    let n := min b.length 65535
    let last := b.length ≤ 65535
    [if last then 1 else 0] ++ leBytes 2 n ++ leBytes 2 (65535 - n) ++ b.take n
      ++ (if last then [] else storedFrom f (b.drop n))

def storedForm (b : Bytes) : Bytes := storedFrom (b.length / 65535 + 1) b

/-- Two ranges have an octet in common. -/
def overlaps (a n b m : Nat) : Bool := decide (a < b + m) && decide (b < a + n)

/-- The job that a descriptor of Table 15.1 describes. -/
def parseJob (b : Bytes) : CompJob :=
  { source := leAt b 0 6, destination := leAt b 8 6, sourceLength := leAt b 0x10 4, destLength := leAt b 0x14 4
    blockSize := leAt b 0x18 4, mode := leAt b 0x1C 1, effort := leAt b 0x1D 1, space := leAt b 0x1E 1
    tag := leAt b 0x2C 4 }

/-- Every field lies in its range and the reserved ones are 0 (R322). -/
def jobFieldsOk (b : Bytes) : Bool :=
  let j := parseJob b
  leAt b 6 2 == 0 && leAt b 0xE 2 == 0 && leAt b 0x1F 1 == 0 && leAt b 0x2A 2 == 0
    && j.destination % 8 == 0 && decide (1 ≤ j.sourceLength) && decide (j.sourceLength ≤ 268435456)
    && j.blockSize % 4096 == 0 && decide (4096 ≤ j.blockSize) && decide (j.blockSize ≤ 65536)
    && decide (j.mode ≤ 3) && decide (1 ≤ j.effort) && decide (j.effort ≤ 4) && decide (j.space ≤ 63)

/-- States in which an Effort above 1 is accepted (R325). -/
def highEffort : ModState → Bool
  | .boot | .selftest | .service | .safe => true
  | _ => false

/-- COMPRESS_SUBMIT: queue a job, or refuse it; the state check comes before the range check as in R278 (R322). -/
def execCompressSubmit (q : Sess) (data : Bytes) (s : State) : Out :=
  .next <| s.host q 0xD000 1 0 fun s =>
    let j := parseJob data
    if data.length ≠ 48 then refused s 0x0202
    else if 2 ≤ j.effort ∧ j.effort ≤ 4 ∧ highEffort s.modState = false then refused s 0x0105
    else if !jobFieldsOk data then refused s 0x0201
    else if j.destLength < jobBound j.sourceLength j.blockSize then refused s 0x0203
    else if overlaps j.source j.sourceLength j.destination j.destLength then refused s 0x0203
    else if 16 ≤ s.jobs.length then refused s 0x0402
    else accepted { s with jobs := s.jobs ++ [j] }

/-- States in which jobs run (R328). -/
def jobsRun : ModState → Bool
  | .ready | .armed | .building | .paused | .service | .safe => true
  | _ => false

/-- The form and payload that TableMode gives a block before the self-check: form 0 stored, 1 static, 2 dynamic
(R324); the encoder's bytes are row 6. -/
def encodeBlock (mode effort : Nat) (b : Bytes) : Nat × Bytes :=
  let st := Config.deflate 1 effort b
  let dy := Config.deflate 2 effort b
  match mode with
  | 0 => (1, st)
  | 1 => (2, dy)
  | 2 => if dy.length < st.length then (2, dy) else (1, st)
  | _ => (0, storedForm b)

/-- A payload passes the check inflater (R326). -/
def selfCheck (payload b : Bytes) : Bool := inflate payload b.length == some b

/-- Flags of a chunk header (Table 15.2). -/
def chunkFlags (fallback last : Bool) (form : Nat) : Nat := 128 * b2n fallback + 64 * b2n last + 16 * form

/-- A chunk: header, payload, padding to 8 octets (R323). -/
def chunkBytes (flags : Nat) (b payload : Bytes) : Bytes :=
  let c := leBytes 2 0x435A ++ leBytes 1 1 ++ leBytes 1 flags ++ leBytes 4 b.length ++ leBytes 4 payload.length
    ++ leBytes 4 (crc32c b) ++ payload
  c ++ List.replicate ((8 - c.length % 8) % 8) 0

/-- A failed self-check (R326). -/
def State.checkFailed (s : State) (j : CompJob) (form : Nat) : State :=
  (s.bump 0xD001 4).emit 0xD101 255 [j.tag, j.progress / j.blockSize, form]

/-- The form taken: (form, payload, FALLBACK), none where the stored form fails its check too (R326). -/
def State.chooseForm (s : State) (j : CompJob) (b : Bytes) : State × Option (Nat × Bytes × Bool) :=
  let (form, payload) := encodeBlock j.mode j.effort b
  if form ≠ 0 ∧ selfCheck payload b ∧ payload.length < storedSize b.length then (s, some (form, payload, false))
  else
    let s := if form ≠ 0 ∧ ¬ selfCheck payload b then s.checkFailed j form else s
    if selfCheck (storedForm b) b then (s, some (0, storedForm b, decide (form ≠ 0)))
    else (s.checkFailed j 0, none)

/-- The running job holds at a translation fault (R165, R328). -/
def State.holdJob (s : State) (j : CompJob) (va : Nat) (write : Bool) (level cause : Nat) : State :=
  ({ s with jobs := { j with held := true } :: s.jobs.drop 1 } : State).raiseFault .compression 255 j.space va write
    level cause j.progress

/-- A chunk of the running job has been written and acknowledged (R328). -/
def State.chunkDone (s : State) (j : CompJob) (n m : Nat) (fallback : Bool) : State :=
  let k := { j with progress := j.progress + n, outBytes := j.outBytes + m }
  let s := ((({ s with jobs := k :: s.jobs.drop 1 } : State).count 0xD001 1 n).count 0xD001 2 m)
  let s := if fallback then s.bump 0xD001 3 else s
  if k.progress < k.sourceLength then s else s.endJob k 0

/-- COMPRESS_CHUNK: the running job's next block is read, compressed, checked and written (R323 to R328). -/
def execCompressChunk (s : State) : Out :=
  match s.jobs with
  | [] => .next s
  | j :: _ =>
    if j.held || !jobsRun s.modState then .next s
    else
      let n := min j.blockSize (j.sourceLength - j.progress)
      match s.readRange .compression j.space 3 (j.source + j.progress) n with
      | (s, .fault va l c) => .next (s.holdJob j va false l c)
      | (s, .bad) => .next (s.endJob j 0x0601)
      | (s, .ok b) =>
        match s.chooseForm j b with
        | (s, none) => .next (s.endJob j 0x0605)
        | (s, some (form, payload, fallback)) =>
          let last := decide (j.sourceLength ≤ j.progress + n)
          let chunk := chunkBytes (chunkFlags fallback last form) b payload
          match s.writeRange .compression j.space 3 (j.destination + j.outBytes) chunk with
          | (s, .fault va l c) => .next (s.holdJob j va true l c)
          | (s, .bad) => .next (s.endJob j 0x0601)
          | (s, .ok _) => .next (s.chunkDone j n chunk.length fallback)

/-- COMPRESS_CANCEL: the job with the Tag ends with 0x0301; an unknown Tag is refused (R328, Table 15.4). -/
def execCompressCancel (q : Sess) (tag : BitVec 32) (s : State) : Out :=
  .next <| s.host q 0xD000 5 tag.toNat fun s =>
    match s.jobs.find? fun j => j.tag == tag.toNat with
    | none => refused s 0x0201
    | some j => accepted (s.endJob j 0x0301)

end Sys2Proof.Machine
end

