-- ==== Sys2Proof/Machine/Faults.lean ====
section
/-!
DEFINITION. Translation faults, their resolution and their consequences (R164 to R166, Table 7.8), and the general
DMA engines (R167, R168).
-/
namespace Sys2Proof.Machine

/-- Tile of the ledger whose words lie at an offset: tiles of 64 octets, row by row (R120; row 22). -/
def State.tileAt (s : State) (va : Nat) : Nat × Nat :=
  let n := max 1 (ceilDiv s.ledger.cols 4)
  (va / 64 % n, va / 64 / n)

/-- The first descriptor of a space, the one under way, changed. -/
def modFirst (space : Nat) (f : DmaJob → DmaJob) : List DmaJob → List DmaJob
  | [] => []
  | j :: t => if j.space = space then f j :: t else j :: modFirst space f t

/-- The transfer of a master that has taken a fault waits (R165, Table 7.8). -/
def State.holdMaster (s : State) (m : Master) (space va : Nat) (write : Bool) : State :=
  match m with
  | .ledger =>
    let t := s.tileAt va
    if write then
      let s := s.takeTile t
      { s with ledger := { s.ledger with heldSpills := t :: s.ledger.heldSpills.filter fun x => x != t } }
    else
      { s with ledger := { s.ledger with
          cached := s.ledger.cached.filter fun x => x != t, heldFills := t :: s.ledger.heldFills.filter fun x => x != t } }
  | .compression => { s with jobs := match s.jobs with | j :: t => { j with held := true } :: t | [] => [] }
  | .dma => { s with dma := modFirst space (fun j => { j with held := true }) s.dma }
  | .compositor => if write then { s with comp := { s.comp with writebackHeld := true } } else s
  | .recorder => { s with mirrorHeld := true }
  | .security => { s with pkg := { s.pkg with held := true } }
  | _ => s

/-- TRANSLATION_FAULT: an access of a master is translated; a walk that fails stops the transfer at its progress word
and queues a fault record (R163 to R165). -/
def execTranslationFault (m : Master) (inst : Byte) (space : SpaceId) (va : BitVec 48) (write : Bool)
    (progress : BitVec 32) (s : State) : Out :=
  match s.translate m space.val va.toNat write with
  | (s, .ok _) => .next s
  | (s, .error (level, cause)) =>
    .next ((s.raiseFault m inst.toNat space.val va.toNat write level cause progress.toNat).holdMaster m space.val
      va.toNat write)

/-- A page leaves every TLB (R164). -/
def State.invalidate (s : State) (space page : Nat) : State :=
  let keep := fun (e : TlbEntry) => !(e.space == space && e.vpage == page)
  ({ s with tlb := s.tlb.filter fun x => keep x.2, sharedTlb := s.sharedTlb.filter keep } : State).bump 0xC100 3

/-- Firmware writes one translation table entry, physical address and value; the 128 words from 16 GiB on stand for its
registers TableBase and SpillBase of the address spaces (R161, R163; row 24). -/
def State.writeTable (s : State) (x : Nat × BitVec 64) : State :=
  let n := (x.1 - memSize) / 8
  if x.1 < memSize then { s with mem := memWriteN s.mem (x.1 / 8 * 8) (leBytes 8 x.2.toNat) }
  else if h : n < 64 then { s with tableBase := s.tableBase.set n (x.2.toNat / 2048 * 2048) }
  else if h : n - 64 < 64 then { s with spillBase := s.spillBase.set (n - 64) x.2.toNat }
  else s

/-- A TLB entry differs from what the tables say of its page. -/
def State.stale (s : State) (e : TlbEntry) : Bool :=
  match walk s.mem (s.tableBase.toList.getD (e.space % 64) 0) (e.vpage * 65536) (!e.r) true with
  | .ok x => entryAddress x / 65536 != e.ppage || bitOf x 2 != e.r || bitOf x 3 != e.w || bitOf x 4 != e.prot
  | .error _ => true

/-- Firmware writes table entries; every page whose entry changes has left the TLBs first (R164). -/
def State.writeTables (s : State) (l : List (Nat × BitVec 64)) : State :=
  let t := l.foldl State.writeTable s
  let gone := (((t.tlb.map (·.2) ++ t.sharedTlb).filter t.stale).map fun e => (e.space, e.vpage)).eraseDups
  gone.foldl (fun s x => s.invalidate x.1 x.2) t

/-- TLB_INVALIDATE (R164). -/
def execTlbInvalidate (space : SpaceId) (page : BitVec 32) (s : State) : Out :=
  .next (s.invalidate space.val page.toNat)

/-- The access of a fault would now be translated. -/
def State.faultCured (s : State) (f : FaultRec) : Bool :=
  match walk s.mem (s.tableBase.toList.getD (f.space % 64) 0) f.address f.write (f.master == 2) with
  | .ok _ => true
  | .error _ => false

/-- The master of a fault goes on from its progress word (R166, Table 7.8). -/
def State.resumeMaster (s : State) (f : FaultRec) : State :=
  match f.master with
  | 2 => { s.redecrypt f.space f.address with pkg := { (s.redecrypt f.space f.address).pkg with held := false } }
  | 3 =>
    let t := s.tileAt f.address
    if f.write then s.spillEnds t false
    else
      match execLedgerTileFill t.1 t.2 false s with
      | .next s => s
      | _ => s
  | 4 => if f.write then s.resumeWriteback else s.resumePlanes
  | 6 => { s with jobs := match s.jobs with | j :: t => { j with held := false } :: t | [] => [] }
  | 7 => { s with mirrorHeld := false }
  | 9 => { s with dma := modFirst f.space (fun j => { j with held := false }) s.dma }
  | _ => s

/-- Contexts BLOCKED by a fetch fault of a space return to their state once none is pending (Table 7.4). -/
def State.unblock (s : State) (space : Nat) : State :=
  if (s.faults ++ s.faultWait).any fun f => f.master == 1 && f.space == space then s
  else
    { s with contexts := s.contexts.map fun (x : Nat × Context) =>
        if x.2.st = .blocked ∧ x.2.blockedCause = 1 ∧ x.2.space = space then
          (x.1, { x.2 with st := x.2.before, blockedCause := 0 })
        else x }

/-- FAULT_RESOLVED: the firmware invalidates the page, writes its tables, decrypts missing package pages again, and
resumes every master that waited on the page (R164, R166). -/
def execFaultResolved (space : SpaceId) (page : BitVec 32) (tables : List (Nat × BitVec 64)) (s : State) : Out :=
  let s := (s.invalidate space.val page.toNat).writeTables tables
  let here := fun (f : FaultRec) => f.space == space.val && f.address / 65536 == page.toNat
  let ends := fun (f : FaultRec) => here f && s.faultCured f
  let cured := (s.faults ++ s.faultWait).filter ends
  match cured.head? with
  | none => .next s
  | some f =>
    let s := { s with faults := s.faults.filter fun g => !ends g, faultWait := s.faultWait.filter fun g => !ends g }
    let s := s.redecrypt space.val (page.toNat * 65536)
    let s := (cured.foldl State.resumeMaster s).admitFaults
    .next ((s.unblock space.val).emit 0xC302 255 [space.val, page.toNat, cured.length, s.tick - f.tick])

/-- A block whose fetch fault is unresolvable takes its place in Q_FETCH, to be rejected with code 0x08 (Table 7.8). -/
def State.fetchUnresolved (s : State) (e : EngineId) (f : FaultRec) : State :=
  let mine := fun (x : EngineId × FetchItem × BlockHeader × Bytes) =>
    x.1 == e && x.2.1.held && x.2.1.space == f.space && decide (x.2.1.address ≤ f.address) && decide (f.address < x.2.1.address + 131072)
  let head := fun (x : FetchItem) => ((s.headerBytes x.space x.address).map parseHeader).getD {}
  if s.fetched.any mine then
    { s with fetched := s.fetched.map fun x =>
        if mine x then (x.1, { x.2.1 with held := false, attempt := 8 }, head x.2.1, []) else x }
  else
    let here := fun (x : FetchItem) =>
      x.space == f.space && decide (x.address ≤ f.address) && decide (f.address < x.address + 131072)
    match s.contexts.findSome? fun x => if x.2.owner = e.val then (s.itemAhead e x.1 x.2).filter here else none with
    | none => s
    | some x => { s with fetched := s.fetched ++ [(e, { x with attempt := 8 }, head x, [])] }

/-- A context whose spill or fill meets an unresolvable fault (Table 7.8). -/
def State.spillUnresolved (s : State) (f : FaultRec) : State :=
  let n := (f.address - s.spillBase.toList.getD (f.space % 64) 0) / 256 % 512
  if f.write then s.spillAbandoned n else s.areaLost n 1

/-- A DMA descriptor ends: DmaLastTag and DmaLastStatus (Table 7.9). -/
def State.endDma (s : State) (j : DmaJob) (status : Nat) : State :=
  (({ s with dma := s.dma.erase j } : State).put 0x3D10 2 j.tag).put 0x3D10 3 status

/-- What an unresolvable fault costs its master (Table 7.8). -/
def State.unresolved (s : State) (f : FaultRec) : State :=
  match f.master with
  | 1 => if h : f.inst < 13 then s.fetchUnresolved ⟨f.inst, h⟩ f else s
  -- the pages stay invalid, so that fetches from them fault (Table 7.8)
  | 2 => { s with pkg := { s.pkg with held := false } }
  | 3 =>
    let t := s.tileAt f.address
    if f.write then s.spillEnds t true
    else
      match execLedgerTileFill t.1 t.2 true s with
      | .next s => s
      | _ => s
  | 4 =>
    if f.write then
      match execWritebackFault true s with
      | .next s => s
      | _ => s
    else { s with planes := s.planes.map fun x => { x with held := false }, comp := { s.comp with cacheError := true } }
  | 6 => match s.jobs with | j :: _ => s.endJob j 0x0403 | [] => s
  | 7 => s.mirrorGap
  | 8 => s.spillUnresolved f
  | 9 => match s.dma.find? fun j => j.space == f.space with | some j => s.endDma j 0x0403 | none => s
  | _ => s

/-- FAULT_TIMEOUT: the first fault that lies outside every mapped region or is still pending after FaultTimeout is
unresolvable, record 0xC303 with cause 1 unmapped or 2 timeout (R27, R166; row 74). -/
def execFaultTimeout (s : State) : Out :=
  match s.faults.find? s.faultLost with
  | none => .next s
  | some f =>
    let cause := if s.unmapped f then 1 else 2
    let s := ({ s with faults := s.faults.erase f } : State).admitFaults
    let s := if f.master = 1 then s.unblock f.space else s
    let s := s.unresolved f
    .next (s.emit 0xC303 f.inst [f.space, f.master, f.inst, b2n f.write, f.level, f.cause, f.address, f.tick, f.progress,
      f.number, cause])

/-- The descriptor of Table 7.7. -/
def parseDma (b : Bytes) : DmaJob :=
  { source := leAt b 0 6, destination := leAt b 8 6, length := leAt b 0x10 4, op := leAt b 0x14 1, space := leAt b 0x15 1
    tag := leAt b 0x1C 4 }

/-- DMA_SUBMIT: queue a COPY or FILL descriptor, or refuse it (R167). -/
def execDmaSubmit (q : Sess) (data : Bytes) (s : State) : Out :=
  .next <| s.host q 0x3D10 1 0 fun s =>
    let j := parseDma data
    if data.length ≠ 32 then refused s 0x0202
    else if (j.op ≠ 1 ∧ j.op ≠ 2) ∨ 63 < j.space ∨ j.length = 0 ∨ 268435456 < j.length then refused s 0x0201
    else if j.op = 1 ∧ overlaps j.source j.length j.destination j.length = true then refused s 0x0203
    else if 64 ≤ (s.dma.filter fun x => x.space == j.space).length then refused s 0x0402
    else accepted { s with dma := s.dma ++ [if j.op = 2 then { j with source := leAt data 0 4 } else j] }

/-- The octets of a FILL chunk: the 32-bit pattern from the destination's start on (Table 7.7). -/
def fillBytes (pattern n : Nat) : Bytes :=
  ((List.replicate (n / 4 + 1) (leBytes 4 pattern)).flatten).take n

/-- A descriptor holds at a fault (R165). -/
def State.holdDma (s : State) (j : DmaJob) (va : Nat) (write : Bool) (level cause : Nat) : State :=
  ({ s with dma := modFirst j.space (fun j => { j with held := true }) s.dma } : State).raiseFault .dma 255 j.space va
    write level cause j.progress

/-- Write a chunk of a descriptor and count it (R168). -/
def State.dmaWrite (s : State) (j : DmaJob) (b : Bytes) : State :=
  match s.writeRange .dma j.space 3 (j.destination + j.progress) b with
  | (s, .fault va l c) => s.holdDma j va true l c
  | (s, .bad) => s.endDma j 0x0403
  | (s, .ok _) =>
    if j.progress + b.length < j.length then
      { s with dma := modFirst j.space (fun j => { j with progress := j.progress + b.length }) s.dma }
    else s.endDma j 0

/-- DMA_CHUNK: the next 4 KiB of a space's first descriptor (R165, R168). -/
def execDmaChunk (space : SpaceId) (s : State) : Out :=
  match s.dma.find? fun j => j.space == space.val with
  | none => .next s
  | some j =>
    if j.held || !flashAllowed s.modState then .next s
    else
      let n := min 4096 (j.length - j.progress)
      if j.op = 2 then .next (s.dmaWrite j (fillBytes j.source n))
      else
        match s.readRange .dma j.space 3 (j.source + j.progress) n with
        | (s, .fault va l c) => .next (s.holdDma j va false l c)
        | (s, .bad) => .next (s.endDma j 0x0403)
        | (s, .ok b) => .next (s.dmaWrite j b)

end Sys2Proof.Machine
end

