-- ==== Sys2Proof/Machine/Security.lean ====
section
/-!
DEFINITION. Security functions (R360 to R375): handshakes and lock-outs, accounts, build packages, firmware images,
cryptographic self-tests, tamper and zeroisation, and the certified configuration.
-/
namespace Sys2Proof.Machine

/-- Head of an area-0xA body for a peer that has no session: account, role, session, address (R373). -/
def peerHead (account : Option (Fin 32)) (ip : Nat) : List Int :=
  [(account.map (fun (a : Fin 32) => (a.val : Int))).getD 255, 0, 255, ip]

/-- Handshakes from an address are refused (R363). -/
def State.lockedOut (s : State) (ip : Nat) : Bool := s.sec.lockouts.any fun x => x.1 == ip && decide (s.tick < x.2)

/-- FailCount of an account (0xA100.07). -/
def State.failCount (s : State) (a : Option (Fin 32)) : State :=
  match a with | some n => s.bump (0xA100 + n.val) 7 | none => s

/-- A failed handshake: its record, and the lock-out of an address after 5 within 60 s (R363). -/
def State.failHandshake (s : State) (ip : BitVec 128) (cause : Nat) (account : Option (Fin 32)) : State :=
  let a := ip.toNat
  let s := (s.failCount account).emit 0xA101 255 (peerHead account a ++ [(cause : Int)])
  if s.lockedOut a then s
  else
    let recent := (a, s.tick) :: s.sec.failures.filter fun x => decide (s.tick < x.2 + msTicks 60000)
    if (recent.filter fun x => x.1 == a).length < 5 then { s with sec := { s.sec with failures := recent } }
    else
      let s := { s with sec := { s.sec with
        failures := recent.filter fun x => x.1 != a
        lockouts := (a, s.tick + msTicks 300000) :: s.sec.lockouts.filter fun x => x.1 != a } }
      (s.bump 0xA001 6).emit 0xA102 255 (peerHead none a ++ [(a : Int), 300])

/-- HANDSHAKE_FAILED: recorded; the fifth failure of an address within 60 s locks it out for 300 s (R363). -/
def execHandshakeFailed (ip : BitVec 128) (cause : Nat) (account : Option (Fin 32)) (s : State) : Out :=
  if !choyrServed s.modState then .next s else .next (s.failHandshake ip cause account)

/-- LOCKOUT_EXPIRY (R363, R27). -/
def execLockoutExpiry (ip : BitVec 128) (s : State) : Out :=
  .next { s with sec := { s.sec with
    lockouts := s.sec.lockouts.filter fun x => !(x.1 == ip.toNat && decide (x.2 ≤ s.tick)) } }

/-- KEY_UPDATE: after 2^20 records in a direction (R364). -/
def execKeyUpdate (q : Sess) (sending : Bool) (s : State) : Out :=
  match s.sessions[q] with
  | none => .next s
  | some x =>
    if (if sending then x.sent else x.received) < 1048576 then .next s
    else .next (s.modSession q fun y => if sending then { y with sent := 0 } else { y with received := 0 })

/-- Table 18.6: the bits of the conditions that fail. -/
def State.unmetNow (s : State) : Nat :=
  let integrator := s.nv.accounts.toList.any fun a => a.enabled && a.role == 2 && !a.fingerprint.isEmpty
  ofBits [s.nv.pskEnable || s.nv.commissioning, s.nv.domainKey.isNone,
    !(integrator && s.nv.trustedCa.toList.any fun c => !c.isEmpty),
    s.recovery || !((s.nv.slots[s.sec.slot]?).any (·.release)), !s.nv.tamperEnable.getLsbD 0,
    decide (s.deviceTime.1 + 86400 < s.nv.vendorWindowEnd)]

/-- CertConformant and UnmetConditions follow; a change of the former is recorded (R374, R375). -/
def State.recert (s : State) : State :=
  let u := s.unmetNow
  let c := s.nv.certifiedMode && u == 0
  let t := { s with sec := { s.sec with unmet := u, conformant := c } }
  if c = s.sec.conformant then t else t.emit 0xA105 255 (auditNone ++ [(b2n s.nv.certifiedMode : Int), (u : Int)])

/-- A security write: refused with 0x0504 where it would clear a condition in certified mode (R375). -/
def certWrite (s t : State) : State × Nat :=
  if s.nv.certifiedMode && ((List.range 6).any fun i => bitOf t.unmetNow i && !bitOf s.unmetNow i) then refused s 0x0504
  else accepted t.recert

/-- The commissioning key is disabled for ever once an integrator account holds a fingerprint (R365). -/
def State.commissionEnd (s : State) : State :=
  if s.nv.accounts.toList.any fun a => a.role == 2 && !a.fingerprint.isEmpty then
    { s with nv := { s.nv with commissioning := false } }
  else s

/-- An account with one field changed, or the refusal of its value (Table 18.7). -/
def Account.write (a : Account) (sub : Nat) (b : Bytes) : Except Nat Account :=
  match sub with
  | 1 => if 1 ≤ b.length ∧ b.length ≤ 32 then .ok { a with name := b } else .error 0x0202
  | 2 =>
    if b.length ≠ 1 then .error 0x0202
    else if leNat b = 0 ∨ 4 < leNat b then .error 0x0201 else .ok { a with role := leNat b }
  | 3 => if b.length = 48 ∨ b.length = 0 then .ok { a with fingerprint := b } else .error 0x0202
  | 4 => if b.length = 32 then .ok { a with psk := b } else .error 0x0202
  | 5 =>
    if b.length ≠ 1 then .error 0x0202 else if 1 < leNat b then .error 0x0201 else .ok { a with enabled := leNat b == 1 }
  | 6 => if b.length ≠ 8 then .error 0x0202 else .ok { a with expiresAt := leNat b }
  | _ => .error 0x0102

/-- The open sessions of an account close (R362). -/
def State.closeAccount (s : State) (n : Fin 32) : State :=
  State.foldFin 16 s fun q s =>
    match s.sessions[q] with
    | some x => if x.account = some n then s.endSession q 4 else s
    | none => s

/-- ACCOUNT_WRITE (R362): the account's open sessions close, record 0xA103. -/
def execAccountWrite (q : Sess) (n : Fin 32) (sub : Byte) (data : Bytes) (s : State) : Out :=
  .next <| s.host q (0xA100 + n.val) sub.toNat (leNat data) fun s =>
    match (s.nv.accounts[n]).write sub.toNat data with
    | .error e => refused s e
    | .ok a =>
      let head := s.auditHead q
      let t := ({ s with nv := { s.nv with accounts := vmod s.nv.accounts n fun _ => a } } : State).commissionEnd
      match certWrite s t with
      | (t, 0) => accepted ((t.closeAccount n).emit 0xA103 255 (head ++ [(n.val : Int), (2 ^ (sub.toNat - 1) : Nat)]))
      | r => r

/-- Section table offset: the first multiple of 64 at or after 0xC8 + 2 × NodeCount (R366). -/
def tableOffset (nodes : Nat) : Nat := ceilDiv (0xC8 + 2 * nodes) 64 * 64

/-- A section entry (Table 18.4). -/
def parseSection (b : Bytes) : PkgSection :=
  { kind := leAt b 0 1, space := leAt b 1 1, length := leAt b 4 4, va := leAt b 8 8, offset := leAt b 0x10 8
    nonce := slice b 0x18 12, tag := slice b 0x28 16, entry := b.take 64 }

/-- A package header with its section table (Table 18.3). -/
def parsePackage (raw : Bytes) : Package :=
  let n := leAt raw 6 2
  let k := leAt raw 8 4
  { raw := raw, minMinor := leAt raw 5 1, nodes := (List.range (min n 64)).map fun i => leAt raw (0xC8 + 2 * i) 2
    packageId := slice raw 0x10 16, signerId := slice raw 0x20 16, digest := slice raw 0x30 48, ephemeral := slice raw 0x60 97
    sections := (List.range (min k 4096)).map fun i => parseSection (slice raw (tableOffset n + 64 * i) 64) }

/-- The context records of a context table (R366). -/
def parseContexts : Nat → Bytes → List PkgContext
  | 0, _ => []
  | f + 1, b =>
    if b.length < 16 then []
    else
      { context := leAt b 0 2, priority := leAt b 2 1, space := leAt b 3 1, homeEngine := leAt b 4 1, listBase := leAt b 8 8 }
        :: parseContexts f (b.drop 16)

/-- A list holds something twice. -/
def hasTwice {α : Type} [BEq α] : List α → Bool
  | [] => false
  | x :: t => t.contains x || hasTwice t

/-- A section entry is well formed within a package of a size whose table ends at `from_` (R366). -/
def PkgSection.ok (x : PkgSection) (from_ size : Nat) : Bool :=
  (x.kind == 1 || x.kind == 2) && leAt x.entry 2 2 == 0 && leAt x.entry 0x24 4 == 0 && leAt x.entry 0x38 8 == 0
    && x.offset % 64 == 0 && decide (from_ ≤ x.offset) && decide (x.offset + x.length + 96 ≤ size)
    && (if x.kind = 1 then x.space == 0 && x.va == 0
        else decide (x.space ≤ 63) && x.va % 65536 == 0 && decide (x.va + x.length ≤ 2 ^ 48))

/-- Pairs of a list satisfy a relation. -/
def allPairs {α : Type} (f : α → α → Bool) : List α → Bool
  | [] => true
  | x :: t => t.all (f x) && allPairs f t

/-- The structure of Tables 18.3 and 18.4, with nonces and mappings (R366, R368). -/
def Package.structureOk (p : Package) : Bool :=
  let r := p.raw
  let n := leAt r 6 2
  let k := leAt r 8 4
  let top := tableOffset n + 64 * k
  let pages := fun (x : PkgSection) => ceilDiv x.length 65536 * 65536
  leAt r 0 4 == 0x4854444E && leAt r 4 1 == 1 && decide (n ≤ 64) && decide (1 ≤ k) && decide (k ≤ 4096) && leAt r 0xC 4 == 0
    && leAt r 0x60 1 == 4 && leAt r 0xC1 7 == 0 && p.nodes.all (fun x => decide (1 ≤ x) && decide (x ≤ 16383))
    && decide (top + 96 ≤ r.length) && p.sections.all (fun x => x.ok top r.length)
    && allPairs (fun a b => !overlaps a.offset a.length b.offset b.length || a.length == 0 || b.length == 0) p.sections
    && !hasTwice (p.sections.map (·.nonce))
    && allPairs (fun a b => !(a.kind == 2 && b.kind == 2 && a.space == b.space && overlaps a.va (pages a) b.va (pages b)))
      p.sections

/-- The contexts that the context tables name, where they open (R366, R367). -/
def State.packageContexts (s : State) (p : Package) : List PkgContext :=
  (p.sections.filter (·.kind == 1)).flatMap fun x =>
    match openSection (s.contentKeyOf p) p.raw x with
    | some b => parseContexts (b.length / 16) b
    | none => []

/-- The contexts are in range and none is named twice (R366, R368). -/
def contextsOk (l : List PkgContext) : Bool :=
  l.all (fun c => decide (c.context < 512) && decide (c.space < 64) && decide (c.homeEngine < 12)) && !hasTwice (l.map (·.context))

/-- The signature verifies under the signer key that SignerID names (R366, R368). -/
def State.signatureOk (s : State) (p : Package) : Bool :=
  let n := p.raw.length - 96
  match s.nv.signerKeys.toList.find? fun k => !k.isEmpty && (Config.sha384 k).take 16 == p.signerId with
  | some k => decide (96 ≤ p.raw.length) && Config.ecdsaVerify k (p.raw.take n) (p.raw.drop n)
  | none => false

/-- The result of the FINAL checks (R368). -/
def State.packageCheck (s : State) (p : Package) : Nat :=
  if !s.signatureOk p then 0x0501
  else if !p.structureOk || !contextsOk (s.packageContexts p) then 0x0203
  else if 4294967295 < p.raw.length then 0x0201
  else 0

/-- A package is refused: the one in force stays (R368). -/
def State.refusePackage (s : State) (p : Package) (status : Nat) : State :=
  ({ s with pkg := { s.pkg with
      state := if s.pkg.inForce.isSome then 3 else 0, status := status, loading := none, received := [], loadingOwner := 255 } } : State).emit
    0xA107 255 (auditNone ++ [(leNat p.packageId : Int), (status : Int)])

/-- PACKAGE_DATA: a segment of a package; the FINAL one is answered with the result of the checks (R270, R368). -/
def execPackageData (q : Sess) (offset : BitVec 32) (final : Bool) (data : Bytes) (s : State) : Out :=
  .next <| State.hostWith (!final) s q 0xA010 1 0 fun s =>
    if s.modState ≠ .ready then refused s 0x0105
    else if s.pkg.state = 2 then refused s 0x0301
    else if s.pkg.state = 1 ∧ s.pkg.loadingOwner ≠ q.val then refused s 0x0301
    else if offset.toNat ≠ s.pkg.received.length then
      let s := { s with pkg := { s.pkg with
        received := [], loadingOwner := 255, state := if s.pkg.inForce.isSome then 3 else 0 } }
      (s, 0x0202)
    else
      let raw := s.pkg.received ++ data
      if !final then accepted { s with pkg := { s.pkg with state := 1, received := raw, loadingOwner := q.val } }
      else
        let p := parsePackage raw
        match s.packageCheck p with
        | 0 => accepted { s with pkg := { s.pkg with state := 2, loading := some p, received := [] } }
        | e => (s.refusePackage p e, e)

/-- Plaintext of every section in table order; none where a tag fails (R367). -/
def State.openAll (s : State) (p : Package) : Option (List Bytes) :=
  p.sections.foldr (fun x r =>
    match r, openSection (s.contentKeyOf p) p.raw x with
    | some l, some b => some (b :: l)
    | _, _ => none) (some [])

/-- The 64 KiB pages of the mapped sections in table order. -/
def mappedPages (l : List (PkgSection × Bytes)) : List Bytes :=
  (l.filter fun x => x.1.kind == 2).flatMap fun x =>
    (List.range (ceilDiv x.2.length 65536)).map fun i => slice x.2 (65536 * i) 65536

/-- Write pages at the physical pages that the firmware chose. -/
def State.placePages (s : State) : List Bytes → List Nat → State
  | b :: t, p :: u =>
    let a := p / 65536 * 65536 % memSize
    let r := s.storePhys a (pad64 b)
    State.placePages { r.1 with pkg := { r.1.pkg with region := r.1.pkg.region ++ [(a, b.length)] } } t u
  | _, _ => s

/-- PACKAGE_DECRYPTED: the security unit has decrypted the sections: the package is in force, or refused with 0x0502 or
0x0403 (R367, R368); while a translation fault holds the decryption it does not complete (Table 7.8). -/
def execPackageDecrypted (placement : List Nat) (tables : List (Nat × BitVec 64)) (memoryOk : Bool) (s : State) : Out :=
  match s.pkg.loading with
  | none => .next s
  | some p =>
    if s.pkg.held then .next s
    else
    match s.openAll p with
    | none => .next (s.refusePackage p 0x0502)
    | some l =>
      let pages := mappedPages (p.sections.zip l)
      if Config.sha384 l.flatten ≠ p.digest then .next (s.refusePackage p 0x0502)
      else if !memoryOk || placement.length < pages.length then .next (s.refusePackage p 0x0403)
      else
        let q := { p with contexts := s.packageContexts p }
        let s := { s with
          pkg := { s.pkg with state := 3, status := 0, inForce := some q, loading := none, loadingOwner := 255, region := [] }
          nv := { s.nv with cache := p.raw } }
        let s := (s.placePages pages placement).writeTables tables
        .next (s.emit 0xA106 255 (auditNone ++ [(leNat p.packageId : Int), (leNat p.digest : Int), (leNat p.signerId : Int)]))

/-- States in which firmware images are taken (R370). -/
def State.firmwareAllowed (s : State) : Bool := s.modState == .ready || (s.modState == .safe && s.recovery)

/-- The inactive slot (R370). -/
def State.otherSlot (s : State) : Nat := 1 - s.nv.activeSlot

/-- Why an image is refused (R370). -/
def State.imageCheck (s : State) (i : FwImage) : Nat :=
  if !i.keyOk || !i.sigOk then 0x0501
  else if i.securityVersion < s.nv.rollbackFloor then 0x0203
  else if !i.release && s.nv.certifiedMode then 0x0504
  else 0

/-- FIRMWARE_IMAGE: the image goes into the inactive slot (R370). -/
def execFirmwareImage (q : Sess) (image : FwImage) (s : State) : Out :=
  .next <| s.host q 0xA030 1 0 fun s =>
    if !s.firmwareAllowed then refused s 0x0105
    else
      let e := s.imageCheck image
      let slot := s.otherSlot
      let s := { s with sec := { s.sec with firmwareStatus := e } }
      let s := s.emit 0xA108 255 (s.auditHead q ++ [(slot : Int), (image.securityVersion : Int), (e : Int)])
      if e ≠ 0 then (s, e)
      else
        let l := s.nv.slots ++ List.replicate (2 - s.nv.slots.length) { keyOk := false, sigOk := false, securityVersion := 0, release := false }
        accepted { s with nv := { s.nv with slots := l.set slot image, stagedSlot := some slot } }

/-- FIRMWARE_ACTIVATE: the staged slot goes on trial at the next RESTART (R370). -/
def execFirmwareActivate (q : Sess) (v : Byte) (s : State) : Out :=
  .next <| s.host q 0xA030 3 v.toNat fun s =>
    if !s.firmwareAllowed then refused s 0x0105
    else if 1 < v.toNat then refused s 0x0201
    else if v = 0 then accepted s
    else
      match s.nv.stagedSlot with
      | none => refused s 0x0203
      | some n =>
        let s := { s with nv := { s.nv with trialSlot := some n, trialStarted := false, stagedSlot := none } }
        accepted (s.emit 0xA109 255 (s.auditHead q ++ [(n : Int), (((s.nv.slots[n]?).map (·.securityVersion)).getD 0 : Nat)]))

/-- A cryptographic function has failed its test (R371): sessions close; SAFE at once, in BUILDING at the next layer
boundary. -/
def State.cryptoFailure (s : State) (test : Nat) : State :=
  let s := ({ s with sec := { s.sec with cryptoFailed := true } } : State).endSessions 4
  let s := s.emit 0xA10B 255 (auditNone ++ [(test : Int), 1])
  match s.modState with
  | .selftest => s.enterSafe 0x0605 .selftest
  | .building => { s with sec := { s.sec with cryptoPending := true } }
  | .ready | .armed | .paused | .service | .safe => s.enterSafe 0x0605 .crypto
  | _ => s

/-- A known-answer test fails (R371). -/
def State.cryptoFailed (s : State) (test : Nat) : State :=
  if s.modState = .off ∨ s.sec.cryptoFailed = true then s else s.cryptoFailure test

/-- SELF_TEST_RUN: the known-answer tests run in READY (R371). -/
def execSelfTestRun (q : Sess) (v : Byte) (pass : Bool) (s : State) : Out :=
  .next <| s.host q 0xA030 6 v.toNat fun s =>
    if s.modState ≠ .ready then refused s 0x0105
    else if 1 < v.toNat then refused s 0x0201
    else if v = 1 ∧ pass = false then accepted (s.cryptoFailure 0)
    else accepted s

/-- The key store is overwritten: every secret of Table 18.1 marked yes, and with them the operational certificate
(R372 and its example). -/
def State.zeroise (s : State) : State :=
  { s with nv := { s.nv with
      storeKey := none, operationalKey := none, packageKey := none, domainKey := none, operationalCert := []
      accounts := s.nv.accounts.map fun a => { a with psk := [] }
      tamperLatched := true } }

/-- Steps that follow with main power: SAFE, sessions closed, package load aborted, the region to be cleared within 2 s
(R372). The status code of the transition is not given: a free value. -/
def State.tamperSafe (s : State) : State :=
  let r := s.takeFree
  let s := (r.2.enterSafe (r.1 % 65536) .tamper).endSessions 4
  { s with
    pkg := { s.pkg with loading := none, received := [], loadingOwner := 255, state := if s.pkg.inForce.isSome then 3 else 0 }
    sec := { s.sec with zeroising := some (s.tick + msTicks 2000) }
    nv := { s.nv with tamperPending := false } }

/-- Record 0xA10A. -/
def State.tamperRecord (s : State) (inputs : Nat) (power : Bool) : State :=
  s.emit 0xA10A 255 (auditNone ++ [(inputs : Int), (b2n power : Int)])

/-- An enabled tamper input low for 50 µs (R372); one recognised in this tick has been dealt with. -/
def State.tampered (s : State) (lowInputs : BitVec 2) (lowUs : Nat) : State :=
  let s := { s with sec := { s.sec with tamperInputs := lowInputs } }
  if lowInputs &&& s.nv.tamperEnable = 0 ∨ lowUs < 50 ∨ s.sec.zeroising = some (s.tick + msTicks 2000) then s
  else
    let s := s.zeroise
    match s.modState with
    | .selftest | .ready | .armed | .building | .paused | .service | .safe =>
      (s.tamperSafe.tamperRecord lowInputs.toNat true).recert
    | .off => { s with nv := { s.nv with tamperPending := true, tamperUnrecorded := true } }
    | _ => (({ s with nv := { s.nv with tamperPending := true } } : State).tamperRecord lowInputs.toNat true).recert

/-- Physical address of the level-3 entry of a virtual address, where levels 1 and 2 are valid (R163). -/
def State.leafAddress (s : State) (space va : Nat) : Option Nat :=
  let e1 := tableEntry s.mem (s.tableBase.toList.getD (space % 64) 0) (field va 47 40)
  if entryCause 1 e1 ≠ 0 then none
  else
    let e2 := tableEntry s.mem (entryAddress e1) (field va 39 28)
    if entryCause 2 e2 ≠ 0 then none else some (entryAddress e2 + 8 * field va 27 16)

/-- A page of the protected region is unmapped (R372). -/
def State.unmapPage (s : State) (space va : Nat) : State :=
  match s.leafAddress space va with
  | some a => ({ s with mem := memWriteN s.mem a (leBytes 8 0) } : State).invalidate space (va / 65536)
  | none => s

/-- The protected region is unmapped and filled with zeros (R372). -/
def State.clearRegion (s : State) : State :=
  let l := ((s.pkg.inForce.map (·.sections)).getD []).filter (·.kind == 2)
  let s := l.foldl (fun (s : State) x =>
    (List.range (ceilDiv x.length 65536)).foldl (fun s i => s.unmapPage x.space (x.va + 65536 * i)) s) s
  s.pkg.region.foldl (fun (s : State) x => (s.storePhys x.1 (pad64 (List.replicate x.2 0))).1) s

/-- Keys that are absent are generated (Table 18.1); their values are free. -/
def State.generateKeys (s : State) : State :=
  let gen := fun (s : State) (k : Option Bytes) => match k with
    | some b => (b, s)
    | none => s.takeFreeBytes 32
  let a := gen s s.nv.storeKey
  let b := gen a.2 s.nv.operationalKey
  let c := gen b.2 s.nv.packageKey
  { c.2 with nv := { c.2.nv with storeKey := some a.1, operationalKey := some b.1, packageKey := some c.1 } }

/-- ZEROISATION_DONE: the region is cleared, no package is in force, and new keys exist (R372). -/
def execZeroisationDone (s : State) : Out :=
  match s.sec.zeroising with
  | none => .next s
  | some _ =>
    let s := s.clearRegion
    let s := { s with pkg := {}, sec := { s.sec with zeroising := none }, nv := { s.nv with cache := [] } }
    .next (s.generateKeys.recert)

/-- TAMPER_ACK: clears bit 4 of TamperStatus, not while an input is low (R372, Table 18.7). -/
def execTamperAck (q : Sess) (v : Byte) (inputsLow : BitVec 2) (s : State) : Out :=
  .next <| s.host q 0xA020 3 v.toNat fun s =>
    let s := { s with sec := { s.sec with tamperInputs := inputsLow } }
    if 1 < v.toNat then refused s 0x0201
    else if inputsLow ≠ 0 then refused s 0x0301
    else if v = 1 then accepted { s with nv := { s.nv with tamperLatched := false } }
    else accepted s

/-- CERTIFIED_MODE_WRITE (R375). -/
def execCertifiedModeWrite (q : Sess) (v : Byte) (s : State) : Out :=
  .next <| s.host q 0xA000 1 v.toNat fun s =>
    let change := fun (s : State) (m : Bool) =>
      if s.nv.certifiedMode = m then s
      else
        let s := { s with nv := { s.nv with certifiedMode := m } }
        let s := { s with sec := { s.sec with unmet := s.unmetNow, conformant := m && s.unmetNow == 0 } }
        s.emit 0xA105 255 (s.auditHead q ++ [(b2n m : Int), (s.unmetNow : Int)])
    if 1 < v.toNat then refused s 0x0201
    else if v = 1 then
      if s.modState ≠ .ready ∨ s.unmetNow ≠ 0 then refused s 0x0203 else accepted (change s true)
    else if s.modState ≠ .ready then refused s 0x0105
    else accepted (change s false)

/-- Security entries written otherwise: PskEnable, DomainKey, VendorWindowEnd, OperationalCert, TrustedCa, SignerKey and
TamperEnable (Table 18.7). None where the entry is not one of them. -/
def State.writeSecurity (s : State) (index sub : Nat) (b : Bytes) : Option (State × Nat) :=
  let put := fun (v : NonVol) => certWrite s { s with nv := v }
  match index, sub with
  | 0xA001, 1 =>
    some (if b.length ≠ 1 then refused s 0x0202 else if 1 < leNat b then refused s 0x0201
      else put { s.nv with pskEnable := leNat b == 1 })
  | 0xA001, 3 => some (if b.length ≠ 32 then refused s 0x0202 else put { s.nv with domainKey := some b })
  | 0xA001, 5 =>
    some (if b.length ≠ 8 then refused s 0x0202 else if s.time.status = 0 then refused s 0x0203
      else put { s.nv with vendorWindowEnd := leNat b })
  | 0xA002, 2 =>
    some (if 2048 < b.length then refused s 0x0202
      else if !Config.certMatches b (s.nv.operationalKey.getD []) then refused s 0x0203
      else put { s.nv with operationalCert := b })
  | 0xA003, _ =>
    if h : 1 ≤ sub ∧ sub ≤ 4 then
      some (if 2048 < b.length then refused s 0x0202
        else put { s.nv with trustedCa := s.nv.trustedCa.set (sub - 1) b })
    else none
  | 0xA004, _ =>
    if h : 1 ≤ sub ∧ sub ≤ 8 then
      some (if b.length ≠ 97 ∧ b.length ≠ 0 then refused s 0x0202
        else put { s.nv with signerKeys := s.nv.signerKeys.set (sub - 1) b })
    else none
  | 0xA020, 1 =>
    some (if b.length ≠ 1 then refused s 0x0202 else if 3 < leNat b then refused s 0x0201
      else put { s.nv with tamperEnable := BitVec.ofNat 2 (leNat b) })
  | _, _ => none

/-- TamperStatus (0xA020.02). -/
def State.tamperStatus (s : State) : Nat := s.sec.tamperInputs.toNat + 16 * b2n s.nv.tamperLatched

end Sys2Proof.Machine
end

