-- ==== Sys2Proof/Machine/Supply.lean ====
section
/-!
DEFINITION. Supply, hold-up, temperatures, and the sources of RESET (R12, R184, R341 to R345, R350 to R353, R355,
R356, R384).
-/
namespace Sys2Proof.Machine

/-- The voltages measured at the inputs. -/
def State.inputs (s : State) (mvA mvB : Nat) : State := { s with supply := { s.supply with mvA := mvA, mvB := mvB } }

/-- PF_WARN: the OR-ed input below 19.5 V for 100 µs (R342). -/
def execPfWarn (mvA mvB belowUs : Nat) (s : State) : Out :=
  if s.modState = .off then .next s
  else
    let s := s.inputs mvA mvB
    if max mvA mvB < 19500 ∧ 100 ≤ belowUs ∧ s.supply.pfWarn = false then
      let s := { s with supply := { s.supply with pfWarn := true } }
      .next ((s.bump 0x9000 6).emit 0x9103 255 [mvA, mvB])
    else .next s

/-- PF_WARN_CLEARED: the OR-ed input rises to 20.4 V (R342). -/
def execPfWarnCleared (mvA mvB : Nat) (s : State) : Out :=
  if s.modState = .off then .next s
  else
    let s := s.inputs mvA mvB
    if 20400 ≤ max mvA mvB then .next { s with supply := { s.supply with pfWarn := false } } else .next s

/-- States from which PF_STOP leads to HOLDUP (Table 1.6). -/
def holdupFrom : ModState → Bool
  | .boot | .selftest | .ready | .armed | .building | .paused | .safe | .service => true
  | _ => false

/-- INPUT_LOST: an input below 20.4 V for 1 ms (R341). -/
def execInputLost (b : Bool) (mv belowUs : Nat) (s : State) : Out :=
  if s.modState = .off then .next s
  else
    let s := { s with supply := if b then { s.supply with mvB := mv } else { s.supply with mvA := mv } }
    let good := if b then s.supply.goodB else s.supply.goodA
    if mv < 20400 ∧ 1000 ≤ belowUs ∧ good = true then
      let s := { s with supply := if b then { s.supply with goodB := false } else { s.supply with goodA := false } }
      .next ((s.emit 0x9101 255 [b2n b, mv]).noteFault 5)
    else .next s

/-- INPUT_RESTORED: an input above 20.4 V for 50 ms (R341). -/
def execInputRestored (b : Bool) (mv aboveUs : Nat) (s : State) : Out :=
  if s.modState = .off then .next s
  else
    let s := { s with supply := if b then { s.supply with mvB := mv } else { s.supply with mvA := mv } }
    let good := if b then s.supply.goodB else s.supply.goodA
    if 20400 < mv ∧ 50000 ≤ aboveUs ∧ good = false then
      let s := { s with supply := if b then { s.supply with goodB := true } else { s.supply with goodA := true } }
      .next (s.emit 0x9102 255 [b2n b, mv])
    else .next s

/-- HOLDUP_RETURN: an input above 20.4 V for 50 ms in HOLDUP, with non-volatile writes complete (Table 1.6, R345). -/
def execHoldupReturn (mv aboveUs : Nat) (s : State) : Out :=
  if s.modState = .holdup ∧ 20400 < mv ∧ 50000 ≤ aboveUs ∧ s.supply.copierPending = none then
    .next (s.enterReset 0x03 0x0000)
  else .next s

/-- OFF, with the cause that the Cowslip domain keeps (R349, Table 17.5). -/
def State.powerDown (s : State) (cause : Nat) : State :=
  { s.enterOff with nv := { s.enterOff.nv with endCause := cause } }

/-- HOLDUP_RAIL_LOW: the bank falls below 20 V (R342, R343, Table 1.6). A copy still under way completes in THERMAL_OFF;
in HOLDUP MRAM writes have stopped and its record is not valid. -/
def execHoldupRailLow (bankMv : Nat) (s : State) : Out :=
  if 20000 ≤ bankMv then .next { s with supply := { s.supply with bankMv := bankMv, charged := decide (36000 ≤ bankMv) } }
  else
    let s := { s with supply := { s.supply with bankMv := bankMv, charged := false } }
    match s.modState with
    | .holdup =>
      let v := { s.nv with
        lastHoldupWindow := (s.tick - s.supply.holdupAt) / 80
        resume := if s.supply.copierPending.isSome then none else s.nv.resume }
      .next (({ s with nv := v } : State).powerDown 0x02)
    | .reset | .thermalOff =>
      if s.supply.inputsCut then
        let v := { s.nv with resume := if s.supply.copierPending.isSome then s.supply.copierPending else s.nv.resume }
        .next (({ s with nv := v } : State).powerDown 0x09)
      else .next s
    | _ => .next s

/-- CONVERTER_STOP: the bank below 18 V with the inputs cut off: every rail is off (R342). -/
def execConverterStop (bankMv : Nat) (s : State) : Out :=
  let s := { s with supply := { s.supply with bankMv := bankMv } }
  if 18000 ≤ bankMv then .next s
  else
    match s.modState with
    | .off => .next { s with supply := { s.supply with railsOff := true } }
    | .holdup =>
      let t := s.powerDown 0x02
      .next { t with supply := { t.supply with railsOff := true } }
    | .reset | .thermalOff =>
      if s.supply.inputsCut then
        let t := s.powerDown 0x09
        .next { t with supply := { t.supply with railsOff := true } }
      else .next s
    | _ => .next s

/-- The reading of a sensor with its SensorOffset (R350). -/
def State.sensorValue (s : State) (n : Nat) (raw : Int) : Int :=
  raw + (((s.records[12].map (·.sensorOffset)).getD []).getD n 0)

/-- Sensor n is excluded. -/
def State.excludedSensor (s : State) (n : Nat) : Bool := s.supply.excluded.getLsbD n

/-- The highest of the non-excluded sensors below a number, and which it is. -/
def State.hottest (s : State) (n : Nat) (t : List Int) : Int × Nat :=
  ((List.range n).filter fun i => !s.excludedSensor i).foldl
    (fun (b : Int × Nat) i => if b.2 = 255 ∨ b.1 < t.getD i 0 then (t.getD i 0, i) else b) (0, 255)

/-- A sensor misbehaves in a round: 1 outside −55 to +150 °C, 2 a change by more than 10 °C, 0 neither (R352). -/
def sensorBad (old : Option Int) (v : Int) : Nat :=
  if v < -5500 ∨ 15000 < v then 1
  else match old with
    | some o => if 1000 < (v - o).natAbs then 2 else 0
    | none => 0

/-- The thermal level after a maximum: 0 normal, 1 warning, 2 stage 1, 3 stage 2 (Table 17.4, R353). -/
def thermalLevel (level : Nat) (m : Int) : Nat :=
  if 10500 ≤ m then max 2 level
  else if 2 ≤ level ∧ 10000 ≤ m then level
  else if 1 ≤ level then (if 9000 ≤ m then 1 else 0)
  else if 9500 ≤ m then 1
  else 0

/-- A change of the level: record 0x9105, the times of stage 1 and of throttling (R352, R353, Table 17.8). -/
def State.toLevel (s : State) (level : Nat) (m : Int) (sensor : Nat) : State :=
  let old := s.supply.level
  if old = level then s
  else
    let s := s.emit 0x9105 255 [old, level, m, sensor]
    let now := some s.tick
    let s := if 2 ≤ old ∧ level < 2 then
        s.count 0x9011 5 ((s.tick - (s.supply.throttleSince.getD s.tick)) / 80000)
      else s
    { s with supply := { s.supply with
        level := level
        stage1At := if level < 2 then none else if old < 2 then now else s.supply.stage1At
        throttleSince := if level < 2 then none else if old < 2 then now else s.supply.throttleSince } }

/-- The period of the rounds (R351). -/
def State.roundTiming (s : State) (hot : Bool) : State :=
  let v := s.supply
  if s.modState = .thermalOff ∨ hot = true then { s with supply := { v with roundPeriod := 500, fastSince := none } }
  else if v.roundPeriod = 10000 then s
  else
    match v.fastSince with
    | none => { s with supply := { v with fastSince := some s.tick } }
    | some t =>
      if t + msTicks 1000 ≤ s.tick then { s with supply := { v with roundPeriod := 10000, fastSince := none } } else s

/-- HOUSEKEEPING_ROUND: every sensor is converted; levels, periods and refresh intervals follow (R308, R350 to R353). -/
def execHousekeepingRound (readings : List Int) (s : State) : Out :=
  if s.modState = .off then .next s
  else
    let t := (List.range 19).map fun i => s.sensorValue i (readings.getD i 0)
    let runs := (List.range 19).map fun i =>
      if sensorBad (s.supply.temps[i]?) (t.getD i 0) = 0 then 0 else s.supply.badRun.getD i 0 + 1
    let hot := (List.range 16).any fun i => !s.excludedSensor i && decide (9700 ≤ t.getD i 0)
    let m := s.hottest 16 t
    let s := { s with supply := { s.supply with temps := t, badRun := runs, maxJunction := m.1 } }
    let s := s.roundTiming hot
    let s := s.toLevel (thermalLevel s.supply.level m.1) m.1 m.2
    let s := if s.memoryOn 0 then s.refreshTemp 0 (t.getD 16 0) (s.excludedSensor 16) else s
    .next (if s.memoryOn 1 then s.refreshTemp 1 (t.getD 17 0) (s.excludedSensor 17) else s)

/-- THROTTLE_STAGE2: stage 1 has lasted Stage2Delay (R353, R27). -/
def execThrottleStage2 (s : State) : Out :=
  match s.supply.stage1At with
  | some t =>
    if s.supply.level = 2 ∧ t + msTicks (1000 * s.nat 0x9012 1) ≤ s.tick then
      .next (s.toLevel 3 s.supply.maxJunction (s.hottest 16 s.supply.temps).2)
    else .next s
  | none => .next s

/-- THERMAL_RESTART: the highest non-excluded reading is below 95 °C (R355), the copier having finished. -/
def execThermalRestart (s : State) : Out :=
  if s.modState = .thermalOff ∧ (s.hottest 19 s.supply.temps).1 < 9500 ∧ s.supply.copierPending = none
      ∧ s.supply.temps ≠ [] then
    .next (s.enterReset 0x06 0x0000)
  else .next s

/-- FIRMWARE_FAILOVER: a core pair fails and the other takes over its services (R166, R184). The record of an absorbed
fault has no type in the spec: a free one of area 0xF. -/
def execFirmwareFailover (s : State) : Out :=
  if s.modState = .off ∨ s.modState = .reset ∨ 2 ≤ s.supply.failedCores then .next s
  else
    let n := s.supply.failedCores + 1
    let s := { s with supply := { s.supply with failedCores := n, bothCoresFailed := decide (2 ≤ n) } }
    let r := s.takeFree
    .next (if n = 1 then (r.2.emit (0xF000 + r.1 % 4096) 255 []).noteFault 4 else s)

/-- The OR-ed input below 18.0 V for 20 µs enters HOLDUP, in RESET and THERMAL_OFF only cuts the inputs off (R342 to
R344). -/
def State.pfStop (s : State) (mvA mvB bankMv loadMw belowUs : Nat) : State :=
  if s.modState = .off then s
  else
    let s := s.inputs mvA mvB
    let s := { s with supply := { s.supply with bankMv := bankMv, charged := decide (36000 ≤ bankMv) } }
    if max mvA mvB < 18000 ∧ 20 ≤ belowUs then
      if holdupFrom s.modState && s.supply.resetHeld.isNone then (s.enterHoldup).emit 0x9104 255 [mvA, mvB, bankMv, loadMw]
      else { s with supply := { s.supply with inputsCut := true } }
    else s

/-- Misbehaviour of sensor n in 3 consecutive rounds excludes it; a second exclusion leads to SAFE (R352). -/
def State.excludeSensor (s : State) (n : SensorId) : State :=
  if s.excludedSensor n.val ∨ s.supply.badRun.getD n.val 0 < 3 then s
  else
    let second := s.supply.excluded != 0
    let s := { s with supply := { s.supply with excluded := s.supply.excluded ||| (1 <<< n.val : BitVec 19) } }
    let v := s.supply.temps.getD n.val 0
    let s := s.emit 0x9106 255 [n.val, v, if v < -5500 ∨ 15000 < v then 1 else 2]
    if second then s.enterSafe 0x0603 .secondSensor else s.noteFault 6

/-- A non-excluded on-die reading at or above 120 °C (R355). Rails go off, so working memory and its contents are
gone. -/
def State.thermalShutdown (s : State) (n : SensorId) (reading : Int) : State :=
  if s.modState = .off ∨ s.modState = .thermalOff ∨ 16 ≤ n.val ∨ s.excludedSensor n.val = true ∨ reading < 12000 then s
  else
    let s := (s.emit 0x9107 n.val [n.val, reading]).enterThermalOff
    { s with mem := [], poisoned := [], dram := Vector.replicate 2 {}, supply := { s.supply with railsOff := true } }

/-- A RESET that has been taken in this tick for the same cause. -/
def State.resetDone (s : State) (code : Nat) : Bool :=
  s.modState == .reset && s.entryTick == s.tick && s.supply.resetCause == code && s.tick != 0

/-- A RESET that waits for the copier, under way or started for it (R346). -/
def State.requestReset (s : State) (code resumeCause : Nat) : State :=
  if s.resetDone code then s
  else if s.supply.copierPending.isSome then { s with supply := { s.supply with resetHeld := some code } }
  else s.resetAfterCopier code 0x0000 resumeCause

/-- States that RESET_L, the clock monitor and RESTART lead out of (Table 1.6). -/
def resettable : ModState → Bool
  | .off | .thermalOff => false
  | _ => true

/-- RESET_L low for 1 µs (R356). -/
def State.resetLow (s : State) (lowNs : Nat) : State :=
  if resettable s.modState = true ∧ 1000 ≤ lowNs then s.requestReset 0x04 0x05 else s

/-- Both firmware-core pairs have failed (R356). -/
def State.watchdogReset (s : State) : State :=
  if resettable s.modState = true ∧ 2 ≤ s.supply.failedCores then
    if s.resetDone 0x08 then s else ((s.gatesOff).emitOff).requestReset 0x08 0x06
  else s

/-- The reference missing or the PLL out of lock for 2 µs: gates and EMIT_EN off in hardware, RESET, the copier going on
from its own oscillator (R12, R346). -/
def State.clockLost (s : State) (lostNs : Nat) (reference locked : Bool) : State :=
  if s.modState = .off ∨ s.modState = .thermalOff ∨ lostNs < 2000 ∨ (reference = true ∧ locked = true) then s
  else
    let s := if s.inBuild then s.interrupt 0x04 else s
    let s := if s.resetDone 0x05 then s else s.enterReset 0x05 0x0000
    { s with supply := { s.supply with refPresent := reference, pllLocked := locked } }

/-- SAFETY_OK falls with 8 low samples (R84): gates, power and EMIT_EN off in hardware; BUILDING and SERVICE go to SAFE
(Table 1.6). -/
def State.safetyFall (s : State) (lowSamples : Nat) : State :=
  if lowSamples < 8 || !s.safetyOk then s
  else
    let s := ({ s with safetyOk := false } : State).bump 0x2002 2
    let s := if s.modState = .building ∨ s.modState = .service then s.enterSafe 0x0306 .safetyOk else s
    (s.gatesOff).emitOff

/-- The place of a trigger in the order of R26: THERMAL_OFF 0, RESET 1, HOLDUP 2, SAFE 3; 4 for a command and for what
triggers no transition. -/
def triggerRank : Instr → Nat
  | .thermalShutdown .. => 0
  | .resetL _ | .watchdog | .clockMonitor .. => 1
  | .pfStop .. => 2
  | .safetyOkFall _ | .sensorExcluded _ | .cryptoSelftestFailure _ | .tamper .. => 3
  | _ => 4

/-- What a trigger does. -/
def State.trigger (s : State) : Instr → State
  | .thermalShutdown n reading => s.thermalShutdown n reading
  | .resetL lowNs => s.resetLow lowNs
  | .watchdog => s.watchdogReset
  | .clockMonitor lostNs reference locked => s.clockLost lostNs reference locked
  | .pfStop mvA mvB bankMv loadMw belowUs => s.pfStop mvA mvB bankMv loadMw belowUs
  | .safetyOkFall n => s.safetyFall n
  | .sensorExcluded n => s.excludeSensor n
  | .cryptoSelftestFailure test => s.cryptoFailed test
  | .tamper lowInputs lowUs => s.tampered lowInputs lowUs
  | _ => s

/-- The triggers that wait in the queue, and so coincide with the command under execution, in the order of R26 up to a
rank; one that has been taken so does nothing more when its own turn comes. -/
def State.triggers (s : State) (rank : Nat) : State :=
  (List.range rank).foldl (fun s k => (s.pending.filter fun c => triggerRank c == k).foldl State.trigger s) s

/-- PF_STOP (R342 to R344). -/
def execPfStop (mvA mvB bankMv loadMw belowUs : Nat) (s : State) : Out :=
  .next ((s.triggers 2).pfStop mvA mvB bankMv loadMw belowUs)

/-- SENSOR_EXCLUDED (R352). -/
def execSensorExcluded (n : SensorId) (s : State) : Out := .next ((s.triggers 3).excludeSensor n)

/-- THERMAL_SHUTDOWN (R355). -/
def execThermalShutdown (n : SensorId) (reading : Int) (s : State) : Out := .next (s.thermalShutdown n reading)

/-- RESET_L (R356). -/
def execResetL (lowNs : Nat) (s : State) : Out := .next ((s.triggers 1).resetLow lowNs)

/-- WATCHDOG (R356). -/
def execWatchdog (s : State) : Out := .next ((s.triggers 1).watchdogReset)

/-- CLOCK_MONITOR (R12, R346). -/
def execClockMonitor (lostNs : Nat) (reference locked : Bool) (s : State) : Out :=
  .next ((s.triggers 1).clockLost lostNs reference locked)

/-- SAFETY_OK_FALL (R84). -/
def execSafetyOkFall (lowSamples : Nat) (s : State) : Out := .next ((s.triggers 3).safetyFall lowSamples)

/-- CRYPTO_SELFTEST_FAILURE (R371). -/
def execCryptoSelftestFailure (test : Nat) (s : State) : Out := .next ((s.triggers 3).cryptoFailed test)

/-- TAMPER (R372). -/
def execTamper (lowInputs : BitVec 2) (lowUs : Nat) (s : State) : Out := .next ((s.triggers 3).tampered lowInputs lowUs)

/-- Outputs commanded on: EMIT_EN of LP0–LP11, released brakes of A0–A3 (R384). -/
def State.outputsOn (s : State) : Nat :=
  ofBits (s.lasers.toList.map (·.emitEn)) + 4096 * ofBits (s.axes.toList.map fun a => !a.brakeOn)

/-- The brake of an axis is engaged: commanded so, off by overload, or without VIO (R384). -/
def State.brakeEngaged (s : State) (a : AxisId) : Bool :=
  s.axes[a].brakeOn || s.axes[a].brakeOverload || !s.supply.vioGood

/-- VIO_LOW: VIO below 18.0 V (R384). -/
def execVioLow (mv : Nat) (s : State) : Out :=
  let s := { s with supply := { s.supply with vioMv := mv } }
  if mv < 18000 ∧ s.supply.vioGood = true ∧ s.modState ≠ .off then
    .next (({ s with supply := { s.supply with vioGood := false } } : State).emit 0x910A 255 [mv, s.outputsOn])
  else .next s

/-- VIO_RESTORED: VIO at 18.0 V or above (R384). -/
def execVioRestored (mv : Nat) (s : State) : Out :=
  let s := { s with supply := { s.supply with vioMv := mv } }
  if 18000 ≤ mv then .next { s with supply := { s.supply with vioGood := true } } else .next s

/-- An output turns itself off (R384): EMIT_EN of a laser, BRAKE or ENC_PWR of an axis. -/
def State.overloadOutput (s : State) (o : Nat) : State :=
  if h : o < 12 then s.modLaser ⟨o, h⟩ fun l => { l with overloadOff := true }
  else if h : o - 12 < 4 then s.modAxis ⟨o - 12, h⟩ fun a => { a with brakeOverload := true }
  else if h : o - 16 < 4 then s.modAxis ⟨o - 16, h⟩ fun a => { a with encPwrOff := true }
  else s

/-- OUTPUT_OVERLOAD: the output is off until commanded off and on again; its bit latches (R384). -/
def execOutputOverload (output : Fin 20) (s : State) : Out :=
  if s.modState = .off then .next s
  else
    let s := s.overloadOutput output.val
    .next (({ s with overload := s.overload ||| (1 <<< output.val : BitVec 20) } : State).emit 0x9109 255
      [output.val, s.supply.vioMv])

end Sys2Proof.Machine
end

