-- ==== Sys2Proof/Machine/Time.lean ====
section
/-!
DEFINITION. Device time, anchors, PTP, TIME_PPS and the time latches (R11, R287 to R300, R332).
-/
namespace Sys2Proof.Machine

/-- Nanoseconds in units of the time counter, 2^−32 ns (R288). -/
abbrev nsUnit : Nat := 2 ^ 32

/-- Seconds in the units of the time counter. -/
abbrev secUnit : Nat := 1000000000 * nsUnit

/-- The octets of device time (R287): Seconds, Nanoseconds, Fraction; all 0 while INVALID (R289). -/
def timeBytes (now : Nat) : Bytes :=
  leBytes 8 (now / secUnit) ++ leBytes 4 (now / nsUnit % 1000000000) ++ leBytes 2 (now % nsUnit / 65536)

/-- TIME_CLK cycles in tick n: one tick is 2.5 of them (R10). -/
def timeCycles (n : Nat) : Nat := (5 * n + 5) / 2 - 5 * n / 2

/-- The time counter over one tick: the rate adjustment changes at a common edge only (R9, R288); 0 while INVALID
(R289). -/
def TimeSt.advance (t : TimeSt) (tick : Nat) : TimeSt :=
  let t := if tick % 4 = 0 then { t with adj := t.adjNext } else t
  if t.status = 0 then t else { t with now := (t.now + timeCycles tick * (5 * nsUnit + t.adj)).toNat }

/-- TimeStatus changes, record 0x8102 (Table 13.1). -/
def State.timeStatus (s : State) (n : Nat) : State :=
  if s.time.status = n then s
  else
    let old := s.time.status
    ({ s with time := { s.time with status := n } } : State).emit 0x8102 255 [old, n, s.time.offset]

/-- The TimeAnchor record (Table 16.3). Causes: 0 second boundary, 1 step, 2 restart, 3 tick only. -/
def State.anchorRecord (s : State) (tick8 sec ns cause : Nat) : State :=
  s.emit 0xB001 255 [tick8, sec, ns, s.time.status, cause, s.nv.operatingHours, s.nv.powerCycles]

/-- ρ in ppb from two anchors (R291): tick counter time over device time, less 1. -/
def rateOf (a b : Anchor) : Int :=
  let dD : Int := ((b.seconds : Int) - a.seconds) * 1000000000 + ((b.nanos : Int) - a.nanos)
  -- an eighth-tick is 25/16 ns
  let num : Int := ((b.tick8 : Int) - a.tick8) * 25 - dD * 16
  if 0 < dD then roundDiv (num * 1000000000) (dD * 16).toNat else 0

/-- An anchor is latched and recorded (R291, R332). -/
def State.latchAnchor (s : State) (a : Anchor) (cause : Nat) : State :=
  let rho := match s.time.anchor with
    | some p => if cause = 0 then rateOf p a else s.time.rho
    | none => s.time.rho
  ({ s with time := { s.time with prevAnchor := s.time.anchor, anchor := some a, rho := rho } } : State).anchorRecord
    a.tick8 a.seconds a.nanos cause

/-- Device time of an instant in eighth-ticks under R291, in ns: D_a + (t − t_a) × 12.5 ns / (1 + ρ·10⁻⁹). -/
def State.timeAt (s : State) (t8 : Int) : Option Rat :=
  match s.time.anchor with
  | some a =>
    some ((a.seconds : Rat) * 1000000000 + a.nanos
      + ((t8 - a.tick8 : Int) : Rat) * 25 / 16 * 1000000000 / ((1000000000 + s.time.rho : Int) : Rat))
  | none => none

/-- The instant, in ns, that 12 octets spell: Seconds U64, Nanoseconds U32. -/
def instantOf (b : Bytes) : Nat := leAt b 0 8 * 1000000000 + leAt b 8 4

/-- No step is made in these states (R293). -/
def State.noStep (s : State) : Bool :=
  s.modState == .building || s.modState == .paused || s.modState == .service
    || (s.modState == .armed && s.time.scheduled.isSome)

/-- Device time is stepped to a value: record 0x8101, StepCount, an anchor at the first common edge after (R291,
R293), and no pulse at the next boundary (R299). Sources: 1 SetTime, 2 PTP. -/
def State.stepTime (s : State) (target : Nat) (source : Nat) : State :=
  let d : Int := (target : Int) - s.time.now
  let edge := (s.tick / 4 + 1) * 4
  let at_ := target + (edge - s.tick) * 25 * nsUnit / 2
  let s := { s with time := { s.time with now := target, skipPulse := true, lastSecond := target / secUnit } }
  let s := (s.emit 0x8101 255 [roundDiv d nsUnit, source]).bump 0x8000 0x0B
  s.latchAnchor { tick8 := 8 * edge, seconds := at_ / secUnit, nanos := at_ / nsUnit % 1000000000 } 1

/-- A PTP port entry in force: as it stood when the module last entered READY, or was written in READY (R296). -/
def State.ptpVal (s : State) (p : Fin 3) (sub : Nat) : Int :=
  let k := entryKey (0x8010 + p.val) sub
  (assocGet k s.time.portDict).getD (defaultOf k)

/-- A port of the module is a PTP port (R296). -/
def State.ptpPort (s : State) (p : Fin 3) : Bool :=
  match s.time.role with
  | 1 => s.nat 0x8001 6 == p.val
  | 2 => s.time.ports[p].enabled
  | 3 => p.val != 2
  | _ => false

/-- Some PTP port is enabled (R292). -/
def State.anyPtp (s : State) : Bool := (List.finRange 3).any fun p => s.ptpPort p

/-- SET_TIME (R292). -/
def execSetTime (q : Sess) (data : Bytes) (s : State) : Out :=
  .next <| s.host q 0x8000 3 data.length fun s =>
    if s.noStep then refused s 0x0105
    else if data.length ≠ 12 then refused s 0x0202
    else if 999999999 < leAt data 8 4 then refused s 0x0201
    else if (s.time.status = 2 ∨ s.time.status = 3 ∨ s.time.status = 5) ∧ s.anyPtp then refused s 0x0203
    else
      let valid := s.time.status != 0
      let s : State := if valid then s else { s with time := { s.time with status := 1 } }
      let s := s.stepTime (instantOf data * nsUnit) 1
      accepted (if valid then s.timeStatus 1 else s.emit 0x8102 255 [0, 1, s.time.offset])

/-- A message with an unsupported option, counted (R295). -/
def State.ptpDiscard (s : State) : State := s.bump 0x8001 9

/-- The PI servo (R294): its terms for an offset are uninterpreted (row 19); the output is held within ±SlewLimit
around the integral, and within ±500 ppm (R288). One ppm is 5·10⁻⁶ ns a cycle. -/
def State.servo (s : State) (p : Fin 3) (offset : Int) : State :=
  let (prop, integral) := Config.servo (s.ptpVal p 5) s.time.integral offset
  let ppm := fun (n : Nat) => ((n * 5 * nsUnit / 1000000 : Nat) : Int)
  let i := clampInt integral (-(ppm 500)) (ppm 500)
  let lim := ppm (s.nat 0x8000 8)
  let adj := clampInt (i + clampInt prop (-lim) lim) (-(ppm 500)) (ppm 500)
  { s with time := { s.time with integral := i, adjNext := adj } }

/-- A ns in the units of correctionField, 2^−16 ns. -/
abbrev corrUnit : Int := 65536

/-- A timestamp at the MII in units of 0.625 ns, moved to the MDI on transmit: TxLatency is added (R297); 2^−16 ns. -/
def State.egressAt (s : State) (p : Fin 3) (mii : Nat) : Int := mii * 40960 + (s.ptpVal p 9).toNat * corrUnit

/-- The same on receive: RxLatency is subtracted (R297). -/
def State.ingressAt (s : State) (p : Fin 3) (mii : Nat) : Int := mii * 40960 - (s.ptpVal p 10).toNat * corrUnit

/-- DelayAsymmetry of a port (R297): IEEE 1588-2019 adds it to the correction of a Sync and of a Pdelay_Resp received, and
subtracts it from that of a Delay_Req and a Pdelay_Req sent. -/
def State.asymmetry (s : State) (p : Fin 3) : Int := s.ptpVal p 11 * corrUnit

/-- Port p measures its link with the peer delay mechanism. -/
def State.peerDelay (s : State) (p : Fin 3) : Bool := s.time.ports[if s.time.role = 3 then 0 else p].mechanism == 2

/-- Path delay that a Sync on a port has, ns: the mean link delay of a P2P port, else the mean path delay (R294). -/
def State.delayOf (s : State) (p : Fin 3) : Nat := if s.peerDelay p then s.time.ports[p].meanLinkDelay else s.time.pathDelay

/-- Origin of a Sync with its corrections, 2^−16 ns. -/
def State.syncOrigin (s : State) (p : Fin 3) (origin : Nat) (correction : Int) : Int :=
  origin * corrUnit + correction + s.asymmetry p

/-- Offset from the master in ns as IEEE 1588-2019 defines it, after the corrections of R297 (R294). -/
def State.ptpOffset (s : State) (p : Fin 3) (origin : Nat) (correction : Int) (ingress : Nat) : Int :=
  roundDiv (s.ingressAt p ingress - s.syncOrigin p origin correction - s.delayOf p * corrUnit) 65536

/-- PTP_SYNC: the servo runs on the offset that the timestamps give, and steps or slews device time (R290, R293, R294,
R297). -/
def execPtpSync (p : Fin 3) (origin : Nat) (stamp : PtpStamp) (newMaster : Bool) (supported : Bool) (s : State) : Out :=
  if !supported then .next s.ptpDiscard
  else if !s.ptpPort p then .next s
  else
    let first := s.time.firstOffset || newMaster
    let offset := s.ptpOffset p origin stamp.correction stamp.ingress
    let s := { s with time := { s.time with
      offset := clampInt offset (-2147483648) 2147483647, pathDelay := s.delayOf p, firstOffset := false
      lastSync := (s.syncOrigin p origin stamp.correction, s.ingressAt p stamp.ingress)
      syncTimer := some (s.tick + msTicks (s.nat 0x8000 0x0A)) } }
    let far := decide ((s.nat 0x8000 7 : Int) < offset.natAbs)
    if (first || far) && !s.noStep then
      let valid := s.time.status != 0
      let s : State := { s with time := { s.time with goodSyncs := 0 } }
      let target := ((s.time.now : Int) - offset * nsUnit).toNat
      let s : State := if valid then s else { s with time := { s.time with status := 2 } }
      let s := s.stepTime target 2
      .next (if valid then s.timeStatus 2 else s.emit 0x8102 255 [0, 2, s.time.offset])
    else if s.time.status = 0 then .next s
    else
      let s := s.servo p offset
      let good := decide (offset.natAbs ≤ s.nat 0x8000 9)
      let n := if good then s.time.goodSyncs + 1 else 0
      let s : State := { s with time := { s.time with goodSyncs := n } }
      let s := s.timeStatus (if 16 ≤ n then 3 else 2)
      if s.time.status = 3 then
        .next { s with time := { s.time with
          history := ((s.tick, s.time.adjNext) :: s.time.history).filter fun x => decide (s.tick ≤ x.1 + 60 * 80000000) } }
      else .next { s with time := { s.time with history := [] } }

/-- Octets of a number, the first the highest. -/
def beBytes (n v : Nat) : Bytes := (leBytes n v).reverse

/-- What R297 fixes of a PTP message sent: its type, flags with twoStepFlag 0, correctionField, and a timestamp as seconds
and ns; over UDP/IPv4 the checksum 0, over UDP/IPv6 two octets that make the checksum right (uninterpreted, row 119). -/
def State.ptpMessage (s : State) (p : Fin 3) (kind : Nat) (correction stamp : Int) : Bytes :=
  let t := stamp.toNat
  let b := beBytes 1 kind ++ beBytes 2 0 ++ beBytes 8 (unsigned 64 correction) ++ beBytes 6 (t / 1000000000) ++ beBytes 4 (t % 1000000000)
  match (s.ptpVal p 3).toNat with
  | 1 => b ++ beBytes 2 0
  | 2 => b ++ beBytes 2 (Config.udpAdjust b).toNat
  | _ => b

/-- A PTP message leaves on a port. -/
def State.sendPtp (s : State) (p : Fin 3) (kind : Nat) (correction stamp : Int) : State :=
  { s with sent := (p.val, s.ptpMessage p kind correction stamp) :: s.sent }

/-- A one-step Sync that leaves at a timestamp of the MII: the egress goes into originTimestamp, its part below 1 ns into
correctionField (R297). -/
def State.sendSync (s : State) (p : Fin 3) (mii : Nat) : State :=
  s.sendPtp p 0 (s.egressAt p mii % corrUnit) (s.egressAt p mii / corrUnit)

/-- A one-step Pdelay_Resp: the turnaround, egress less ingress of the Pdelay_Req, is added to correctionField (R297). -/
def State.sendPdelayResp (s : State) (p : Fin 3) (ingress egress : Nat) (correction : Int) : State :=
  s.sendPtp p 3 (correction + (s.egressAt p egress - s.ingressAt p ingress)) 0

/-- Device time in units of the MII timestamps, 0.625 ns (R297). -/
def State.miiTime (s : State) : Nat := s.time.now * 8 / (5 * nsUnit)

/-- An interval of 2^n s in ticks. -/
def logTicks (n : Int) : Nat := 80000000 * 2 ^ (n + 7).toNat / 128

/-- PTP messages that leave by themselves in a tick: on a port in MASTER a Sync at each LogSyncInterval and an Announce at
each LogAnnounceInterval, on a P2P port a Pdelay_Req at each LogMinPdelayReqInterval (Tables 13.2 and 13.4; at which ticks
is the model's, row 119). -/
def State.ptpSends (s : State) : State :=
  State.foldFin 3 s fun p s =>
    if !s.ptpPort p || s.time.status == 0 then s
    else
      let master := s.time.ports[p].state == 6
      let s := if master && s.tick % logTicks (s.ptpVal p 5) == 0 then s.sendSync p s.miiTime else s
      let s := if master && s.tick % logTicks (s.ptpVal p 6) == 0 then s.sendPtp p 11 0 0 else s
      if s.peerDelay p && s.tick % logTicks (s.ptpVal p 8) == 0 then s.sendPtp p 2 (-(s.asymmetry p)) 0 else s

/-- A mean delay in ns from a sum of two ways in 2^−16 ns; not below 0. -/
def meanDelay (sum : Int) : Nat := min (roundDiv sum 131072).toNat 4294967295

/-- PTP_DELAY_MESSAGE: a request is answered, an answer gives the mean path delay, or the mean link delay of a P2P port
(R294, R297). -/
def execPtpDelayMessage (p : Fin 3) (message : PtpDelay) (correction : Int) (supported : Bool) (s : State) : Out :=
  if !supported then .next s.ptpDiscard
  else if !s.ptpPort p then .next s
  else
    match message, s.peerDelay p with
    | .delayReq t, false =>
      if s.time.ports[p].state = 6 then .next (s.sendPtp p 9 (correction - s.ingressAt p t % corrUnit) (s.ingressAt p t / corrUnit)) else .next s
    | .delayResp t3 t4, false =>
      let sum := (s.time.lastSync.2 - s.time.lastSync.1) + (t4 * corrUnit - s.egressAt p t3) - correction
      .next { s with time := { s.time with pathDelay := meanDelay sum } }
    | .pdelayReq t2 t3, true => .next (s.sendPdelayResp p t2 t3 correction)
    | .pdelayResp t1 t4 turn, true =>
      let sum := (s.ingressAt p t4 - s.egressAt p t1) - turn * corrUnit - (correction + s.asymmetry p)
      .next { s with time := { s.time with ports := vmod s.time.ports p fun x => { x with meanLinkDelay := meanDelay sum } } }
    | _, _ => .next s

/-- Port states as BMCA sets them, records 0x8104; the module is grandmaster when some port is MASTER and none SLAVE
or UNCALIBRATED (R296, Table 13.1). -/
def State.bmca (s : State) (states : List (Fin 3 × Nat)) : State :=
  let s := states.foldl (fun (s : State) (x : Fin 3 × Nat) =>
    let old := s.time.ports[x.1].state
    if old = x.2 then s
    else ({ s with time := { s.time with ports := vmod s.time.ports x.1 fun y => { y with state := x.2 } } } : State).emit
      0x8104 255 [x.1.val, old, x.2]) s
  let st := s.time.ports.toList.map (·.state)
  let slave := st.contains 8 || st.contains 9
  if st.contains 6 && !slave && s.nat 0x8001 5 = 0 && s.time.status != 0 then
    (({ s with time := { s.time with adjNext := 0, integral := 0, syncTimer := none } } : State).timeStatus 5)
  else s

/-- Ticks of AnnounceReceiptTimeout of a port: so many intervals of 2^LogAnnounceInterval s. -/
def State.announceTicks (s : State) (p : Fin 3) : Nat :=
  let n := (s.ptpVal p 7).toNat
  let log := s.ptpVal p 6
  n * 80000000 * 2 ^ (log + 3).toNat / 8

/-- PTP_ANNOUNCE: BMCA with a master heard on a port; a change of grandmaster is recorded (R296). -/
def execPtpAnnounce (p : Fin 3) (grandmaster stepsRemoved : Nat) (utcOffset : Int) (better : Bool)
    (states : List (Fin 3 × Nat)) (supported : Bool) (s : State) : Out :=
  if !supported then .next s.ptpDiscard
  else if !s.ptpPort p then .next s
  else
    let s := { s with time := { s.time with
      ports := vmod s.time.ports p fun x => { x with receiptTimer := some (s.tick + s.announceTicks p) } } }
    let s := s.bmca states
    if !better then .next s
    else
      let old := s.time.grandmaster
      let s := { s with time := { s.time with
        grandmaster := grandmaster, stepsRemoved := stepsRemoved, utcOffset := utcOffset } }
      if old = grandmaster then .next s
      else .next (({ s with time := { s.time with firstOffset := true } } : State).emit 0x8103 255 [old, grandmaster, stepsRemoved])

/-- What the transparent clock adds to correctionField (R298): to a one-step Sync and the other event messages, types 0 to
3, the residence time, and to a Sync of a P2P port its mean link delay; to a Follow_Up, type 8, what its two-step Sync
would have got. General messages have no timestamps of their own (R297). -/
def State.forwardSum (s : State) (p : Fin 2) (source seq kind residence : Nat) : Int :=
  if kind = 8 then ((s.time.twoSteps.find? fun x => x.1 == source && x.2.1 == seq).map (·.2.2)).getD 0
  else if kind ≤ 3 then
    residence + (if kind = 0 ∧ s.time.ports[0].mechanism = 2 then s.time.ports[p.val].meanLinkDelay * 65536 else 0 : Nat)
  else 0

/-- PTP_FORWARD: the transparent clock forwards a message between A and B with its residence time, in 2^−16 ns as
correctionField holds it; of a two-step Sync the sum goes into its Follow_Up; a residence above 10 ms and a Sync or
Follow_Up seen in the last 1 s are discarded (R298). Message types: 0 Sync, 8 Follow_Up; `source` is the
sourcePortIdentity with the domain. -/
def execPtpForward (p : Fin 2) (source : Nat) (sequenceId : BitVec 16) (kind : PtpKind) (residence : Nat) (correction : Int)
    (s : State) : Out :=
  if s.time.role ≠ 3 then .next s
  else
    let seq := sequenceId.toNat
    let seen := s.time.forwarded.filter fun x => decide (s.tick < x.2.2.2 + 80000000)
    let looped := (kind.messageType == 0 || kind.messageType == 8) && seen.any fun x => x.1 == source && x.2.1 == seq && x.2.2.1 == kind.messageType
    if 10000000 * 65536 < residence || looped then .next s.ptpDiscard
    else
      let sum := s.forwardSum p source seq kind.messageType residence
      let later := kind.twoStep && kind.messageType == 0
      let steps := if kind.messageType = 0 ∨ kind.messageType = 8 then s.time.twoSteps.filter fun x => !(x.1 == source) else s.time.twoSteps
      let s := { s with time := { s.time with
        forwarded := if kind.messageType = 0 || kind.messageType = 8 then (source, seq, kind.messageType, s.tick) :: seen else seen
        twoSteps := if later then (source, seq, sum) :: steps else steps } }
      .next { s with sent := (1 - p.val, leBytes 8 (unsigned 64 (correction + if later then 0 else sum))) :: s.sent }

/-- SYNC_LOSS: no Sync for SyncLossTimeout after LOCKED: HOLDOVER at the mean rate of the last 60 s (R290). -/
def execSyncLoss (s : State) : Out :=
  match s.time.syncTimer with
  | some t =>
    if s.tick < t then .next s
    else
      let s := { s with time := { s.time with syncTimer := none, goodSyncs := 0 } }
      if s.time.status ≠ 3 then .next s
      else
        let h := (s.time.history.filter fun x => decide (s.tick ≤ x.1 + 60 * 80000000)).map (·.2)
        let mean := if h.isEmpty then s.time.adjNext else roundDiv h.sum h.length
        .next (({ s with time := { s.time with adjNext := mean } } : State).timeStatus 4)
  | none => .next s

/-- ANNOUNCE_RECEIPT_TIMEOUT: BMCA repairs the hierarchy (R296). -/
def execAnnounceReceiptTimeout (p : Fin 3) (states : List (Fin 3 × Nat)) (s : State) : Out :=
  match s.time.ports[p].receiptTimer with
  | some t =>
    if s.tick < t then .next s
    else .next (({ s with time := { s.time with ports := vmod s.time.ports p fun x => { x with receiptTimer := none } } } : State).bmca
      states)
  | none => .next s

/-- TIME_PPS is enabled (R299). -/
def State.ppsOn (s : State) : Bool :=
  match s.nat 0x8020 1 with
  | 1 => s.time.status == 3 || s.time.status == 4
  | 2 => s.time.status != 0
  | _ => false

/-- SECOND_BOUNDARY: the anchor of a device-time second, and TIME_PPS rises unless a step came before it (R291,
R299). -/
def execSecondBoundary (s : State) : Out :=
  let sec := s.time.now / secUnit
  if s.time.status = 0 ∨ sec ≤ s.time.lastSecond then .next s
  else
    let past := s.time.now % secUnit
    let t8 := ((8 * s.tick : Nat) - roundDiv (16 * past : Nat) (25 * nsUnit) : Int).toNat
    let s := { s with time := { s.time with lastSecond := sec } }
    let s := s.latchAnchor { tick8 := t8, seconds := sec, nanos := 0 } 0
    if s.time.skipPulse then .next { s with time := { s.time with skipPulse := false } }
    else if s.ppsOn then
      .next { s with time := { s.time with ppsHigh := true, ppsUntil := some (s.tick + msTicks (s.nat 0x8020 2)) } }
    else .next s

/-- TICK_ANCHOR: every 80,000,000 ticks while device time is INVALID (R332). -/
def execTickAnchor (s : State) : Out :=
  if s.time.status ≠ 0 ∨ s.tick < s.time.tickAnchorAt + 80000000 then .next s
  else .next (({ s with time := { s.time with tickAnchorAt := s.tick } } : State).anchorRecord (8 * s.tick) 0 0 3)

/-- PPS_END: TIME_PPS falls after PpsWidth (R299). -/
def execPpsEnd (s : State) : Out :=
  match s.time.ppsUntil with
  | some t => if s.tick < t then .next s else .next { s with time := { s.time with ppsHigh := false, ppsUntil := none } }
  | none => .next s

/-- LATCH_EDGE: an accepted edge queues a record of device time, the level in bit 15 of the Fraction; a full queue of
16 discards it (R300). -/
def execLatchEdge (i : Fin 2) (level : Bool) (s : State) : Out :=
  let sel := s.nat (0x8021 + i.val) 1
  let wanted := if level then sel == 1 || sel == 3 else sel == 2 || sel == 3
  if s.time.status = 0 || !wanted then .next s
  else
    let queue := s.time.latches.getD i.val []
    if queue.length < 16 then
      .next { s with time := { s.time with latches := s.time.latches.set i.val (queue ++ [(s.time.now, level)]) } }
    else
      let s := s.bump (0x8021 + i.val) 3
      let lost := s.time.latchLost.getD i.val 0 + 1
      let due := match s.time.latchOverflowAt.getD i.val none with
        | some t => decide (t + 80000000 ≤ s.tick)
        | none => true
      if due then
        .next (({ s with time := { s.time with
          latchLost := s.time.latchLost.set i.val 0, latchOverflowAt := s.time.latchOverflowAt.set i.val (some s.tick) } } : State).emit
            0x8106 255 [i.val, lost])
      else .next { s with time := { s.time with latchLost := s.time.latchLost.set i.val lost } }

/-- A latch record (R300). -/
def latchBytes (x : Nat × Bool) : Bytes :=
  leBytes 8 (x.1 / secUnit) ++ leBytes 4 (x.1 / nsUnit % 1000000000)
    ++ leBytes 2 (x.1 % nsUnit / 65536 % 32768 + 32768 * b2n x.2)

/-- LATCH_DATA_READ: every record in the queue, which is emptied (R300). -/
def execLatchDataRead (q : Sess) (i : Fin 2) (s : State) : Out :=
  .next <| s.hostRead q (0x8021 + i.val) 2 fun s =>
    ({ s with time := { s.time with latches := s.time.latches.set i.val [] } },
      (s.time.latches.getD i.val []).flatMap latchBytes)

/-- Oscillator offset in ppb at a temperature in 0.01 °C: linear between bins, held beyond the ends (Table 9.3). -/
def oscOffset (t : List Int) (temp : Int) : Int :=
  let x := clampInt (temp + 4000) 0 16000
  let m := (x / 500).toNat
  let a := t.getD m 0
  let b := t.getD (min 32 (m + 1)) 0
  roundDiv (a * (500 - x % 500) + b * (x % 500)) 500

/-- OSC_TRIM: each ms the PLL trim moves by at most 0.01 ppm towards the compensation of sensor 18's temperature,
within ±50 ppm; it holds while sensor 18 is excluded (R11, R350). -/
def execOscTrim (s : State) : Out :=
  if s.supply.excluded.getLsbD 18 || s.supply.trimAt.any fun t => decide (s.tick < t + 80000) then .next s
  else
    let temp := s.supply.temps.getD 18 2500
    let want := -(oscOffset ((s.records[12].map (·.oscTable)).getD []) temp)
    let goal := clampInt want (-50000) 50000
    let d := clampInt (goal - s.supply.oscTrim) (-10) 10
    .next { s with supply := { s.supply with
      oscTrim := s.supply.oscTrim + d, trimAt := some s.tick, trimLimit := decide (want < -50000) || decide (50000 < want) } }

/-- PLL_LOCK: the dividers are released together; tick counter and ledger time start from 0 (R9, R291). -/
def execPllLock (s : State) : Out :=
  if s.supply.pllLocked then .next s
  else
    let back := fun (t : Option Nat) => t.map fun (x : Nat) => x - s.tick
    .next { s with
      tick := 0, entryTick := 0, ledger := { s.ledger with zero := 0 }
      supply := { s.supply with pllLocked := true, refPresent := true, copierUntil := back s.supply.copierUntil } }

end Sys2Proof.Machine
end

