-- ==== Sys2Proof/Machine/Build.lean ====
section
/-!
DEFINITION. Build control (R25, R49, R61, R86, R87, R91, R134, R156, R187, R243, R301, R302, R348, R353, R391): the commands of
0x2001.01, scheduled starts, and the start and end of a layer.
-/
namespace Sys2Proof.Machine

/-- A command written to StateCommand, evaluated against the state that triggers of the same tick produce (R26);
CommandStatus keeps its status (Table 1.7). -/
def State.command (s : State) (q : Sess) (code : Nat) (act : State → State × Nat) : State :=
  let s := s.triggers 4
  let t := s.host q 0x2001 1 code act
  if s.served q && t.modState != .reset then { t with commandStatus := t.answer } else t

/-- Counters cleared at START (R88, R114, R136, R152, R170, R188, Tables 1.7, 2.8 and 17.4). -/
def clearedAtStart (key : Nat) : Bool :=
  let ix := key / 256
  let sub := key % 256
  let eng := decide (0x3000 ≤ ix) && decide (ix < 0x3D00)
  match eng, ix % 256 with
  | true, 0x02 => sub == 3
  | true, 0x03 => sub == 1 || sub == 5
  | true, 0x04 | true, 0x05 => true
  | true, 0x06 => sub == 2 || sub == 3
  | true, 0x10 => ix == 0x3C10 && (sub == 3 || sub == 7 || sub == 8)
  | _, _ =>
    (ix == 0x3D00 && 3 ≤ sub) || (ix == 0x3D01 && sub == 1) || (decide (0x3D40 ≤ ix) && decide (ix < 0x3D80) && sub == 4)
      || (decide (0x4000 ≤ ix) && decide (ix < 0x4C00) && ((ix % 256 == 1 && (sub == 2 || sub == 3)) || (ix % 256 == 9 && 2 ≤ sub && sub ≤ 4)))
      || (decide (0x5100 ≤ ix) && decide (ix < 0x510C) && (sub == 3 || sub == 4 || sub == 5 || sub == 7))
      || (ix == 0x5201 && 4 ≤ sub && sub ≤ 6)
      || (decide (0x5800 ≤ ix) && decide (ix < 0x5A80) && ix % 32 == 0 && 5 ≤ sub && sub ≤ 7)
      || ix == 0xC100 || (ix == 0x9011 && sub == 5)

/-- What START does to counters: all are cleared, BufferedTimeMin is set to its highest value. -/
def State.clearCounters (s : State) : State :=
  let s := { s with
    dict := s.dict.filter fun x => !clearedAtStart x.1
    supply := { s.supply with throttleSince := s.supply.throttleSince.map fun _ => s.tick } }
  (s.mapEngines fun g => { g with dupDeviation := 0 }) |> fun s =>
    State.foldFin 13 s fun e s => s.put (engIx 0x3002 e) 2 0xFFFFFFFF

/-- An engine without work: what it held for a build is gone; its position and outputs stay. -/
def Engine.dropWork (g : Engine) : Engine :=
  { g with
    ctx := none, buf := [], wordOff := 0, ppOffset := 0, group := none, seam := none, seamDue := [], wait := .none
    stolenQ := [], fetchWaited := none, stopInUnit := false, stopDwell := 0, stopFraction := 0, backTo := none, claimId := none
    claimGranted := false, checkpoints := [], readyTimer := none, forcedTimer := none, stealAt := none, parkAtPoint := false
    inSegment := false, segHasMark := false, stallLaser := false, layerDone := true, atPoint := true }

/-- Engines leave the build: each that worked or waited in it is IDLE. Table 3.2 has that transition from ARMED only; at ABORT
and CLEAR_SAFE the model takes it from RUNNING, YIELDING, STALLED and PARKED too, since no build is armed any more (DEDUCED from
Table 3.1, rows 89 and 107). -/
def State.enginesIdle (s : State) : State :=
  let s := State.foldFin 13 s fun e s =>
    if s.inGap e then (s.endGapWork .idle).modEngine e Engine.dropWork
    else match s.eff e with
    | .running | .yielding => ((s.stopEngine e).setEff e .idle 0).modEngine e Engine.dropWork
    | .armed | .stalled | .parked => (s.setEff e .idle 0).modEngine e Engine.dropWork
    | _ => s
  { s with claims := [], remainders := [], fetched := [] }

/-- The build is over: its layer, its schedule and the layer instant go with it. -/
def State.endBuild (s : State) : State :=
  let s := s.enginesIdle
  let s := (s.putBlob 0x2003 1 []).putBlob 0x2003 4 []
  { s with
    layer := { ({} : LayerSt) with number := s.layer.number, hostLossTimer := s.layer.hostLossTimer }
    time := { s.time with scheduled := none, layerStartAt := none } }

/-- Enter READY from a build that is over. -/
def State.buildOver (s : State) (cause : Nat) : State := ((s.endBuild).goto .ready cause).emitUpdate

/-- Lasers named in the masks of a list's blocks, from entry i on (R83). -/
def State.listMask (s : State) (c : Context) : Nat → Nat → Nat
  | 0, _ => 0
  | f + 1, i =>
    match s.listEntry c i with
    | none => 0
    | some l =>
      let m := ((s.headerBytes c.space l.address).map fun b => (parseHeader b).eligibility).getD 0
      if l.listEnd then m else m ||| s.listMask c f (i + 1)

/-- Bounding box of the targets of words (R134). -/
def wordsBox (ws : List VWord) : Rect :=
  let pts := ws.filterMap fun w => match w with
    | .jump _ x y => some (x, y)
    | .mark _ _ _ x y => some (x, y)
    | _ => none
  match pts with
  | [] => {}
  | (x, y) :: t =>
    t.foldl (fun r p => { x0 := min r.x0 p.1, y0 := min r.y0 p.2, x1 := max r.x1 p.1, y1 := max r.y1 p.2 })
      { x0 := x, y0 := y, x1 := x, y1 := y }

/-- The check of the re-melt template (R134): its header and box, or the code that failed. -/
def State.templateCheck (s : State) : Except Nat (BlockHeader × Rect) :=
  let va := s.armNat 0x5000 5
  let space := s.armNat 0x5000 6
  if va % 32 ≠ 0 then .error 0x08
  else
    match s.headerBytes space va with
    | none => .error 0x08
    | some hb =>
      let h := parseHeader hb
      match headerCheck hb with
      | 0 =>
        if !isTemplate h then .error 0x05
        else
          match (s.readRange .fetch space 3 (va + 32) h.compressedLength).2 with
          | .ok b =>
            match s.checkPayload h true b with
            | .ok ws => .ok (h, wordsBox ws)
            | .error (_, code) => .error code
          | _ => .error 0x08
      | code => .error code

/-- The first node of the package that is not heard or too old (R274); the module counts as heard at minor 2. -/
def State.nodeMissing (s : State) (p : Package) : Option Nat :=
  p.nodes.find? fun n =>
    !(n == s.nat 0x1010 1 && decide (p.minMinor ≤ 2)) && !(s.nodes.any fun (x : Node) => x.id == n && decide (p.minMinor ≤ x.minor))

/-- The resume record does not fit what is in force (R348). -/
def State.resumeMismatch (s : State) : Bool :=
  match s.nv.resume with
  | none => true
  | some r =>
    let pairs := r.cal.zip s.calMarks
    !s.resumeAvailable || r.digest != s.digest || r.pCrc != s.pCrc || r.cal.length != s.calMarks.length
      || pairs.any fun (a, b) => (a.1 == 0) != (b.1 == 0) || a.1 == 2 || b.1 == 2 || a.2 != b.2

/-- ARM is refused before the program checks (R25, R272, R274, R305, R348, R368). -/
def State.armRefusal (s : State) : Option (State × Nat) :=
  if s.modState ≠ .ready then some (s, 0x0105)
  else if s.pkg.state = 1 ∨ s.pkg.state = 2 then some (s, 0x0301)
  else
    match s.pkg.inForce with
    | none => some (s.put 0x2010 1 0, 0x0203)
    | some p =>
      if s.dram.any fun d => d.trained != 1 then some (s, 0x0403)
      else if s.nat 0x1010 1 = 0 || s.duplicateAt.isSome then some (s, 0x0203)
      else if s.resumeArm && s.resumeMismatch then some (s, 0x0203)
      else if s.resumeArm && s.layerAxes.any fun a => !bitOf s.axes[a].flags 0 then some (s, 0x0307)
      else
        match s.nodeMissing p with
        | some n => some ((s.put 0x2010 1 0).put 0x2010 3 n, 0x0304)
        | none => none

/-- The engine a home engine's contexts go to: CE12 where it stands in (R176). -/
def State.homeOf (s : State) (home : Nat) : Nat :=
  if s.spare.standinFor.any fun n => n.val == home && s.engines[12].st == .standin then 12 else 255

/-- Contexts of the package (R366, Table 7.4). -/
def State.loadContexts (s : State) (p : Package) : List (Nat × Context) :=
  p.contexts.foldl (fun l c =>
    assocPut c.context
      { st := .loaded, priority := c.priority, space := c.space, homeEngine := c.homeEngine, engine := s.homeOf c.homeEngine
        listBase := c.listBase } l) []

/-- A context of the resume record, off every engine (R348). -/
def Context.restored (c : Context) (tick : Nat) : Context :=
  let st := match c.st with
    | .running => .preempted
    | .blocked => c.before
    | x => x
  { c with st := st, before := if st = .ready then .ready else .preempted, engine := c.homeEngine, kept := [], readyAt := tick,
           blockedCause := 0, powerResume := c.powerResume || st == .preempted }

/-- The contexts of the resume record: a slot for each save area that was spilled, and those lost handled as failed
fills (R348). -/
def State.restoreContexts (s : State) (r : ResumeRec) : State :=
  let l := r.contexts.foldl (fun (l : List (Nat × Context)) (n, c) =>
    let c := c.restored s.tick
    let c := if c.area.isSome && 96 ≤ c.saveSlot then { c with saveSlot := (freeSlot l).getD 255 } else c
    assocPut n c l) []
  let s := { s with contexts := l }
  r.spilledAbsent.foldl (fun s n => s.areaLost n 1) s

/-- Ledger dimensions for the cell size and bed in force (R120). -/
def State.ledgerSize (s : State) : LedgerSt :=
  let c := s.cellSize
  let cells := fun (um : Nat) => ceilDiv (ceilDiv um c) 4 * 4
  { ({} : LedgerSt) with cols := cells (s.armNat 0x2800 1), rows := cells (s.armNat 0x2800 2) }

/-- What ARM prepares (R91, R120, R134, R142, R156): the values in force, an empty ledger, cleared lanes, engines with
contexts ARMED. -/
def State.prepare (s : State) (p : Package) (tpl : Option (BlockHeader × Rect)) : State :=
  let s := s.enginesIdle
  let s : State := { s with
    contexts := [], tokens := Vector.replicate 64 {}, ledger := s.ledgerSize
    lanes := s.lanes.map fun (l : Lane) => { l with states := [], c := 0, b := 0, clamped := 0, slewing := false }
    layer := { ({} : LayerSt) with template := tpl, hostLossTimer := s.layer.hostLossTimer } }
  let s := match s.resumeArm, s.nv.resume with
    | true, some r =>
      let t := ({ s with layer := { s.layer with number := r.layer } } : State).restoreContexts r
      t.emit 0x2103 255 [r.layer, r.contexts.length]
    | _, _ => ({ s with contexts := s.loadContexts p } : State).discardResume 1
  let mask := s.contexts.foldl (fun (m : Nat) (x : Nat × Context) => if x.2.injected then m else m ||| s.listMask x.2 65536 0) 0
  let mask := mask ||| (tpl.map (·.1.eligibility)).getD 0
  let s := { s with layer := { s.layer with emitMask := mask } }
  State.foldFin 13 s fun e s =>
    if s.eff e = .idle && s.contexts.any fun x => x.2.owner == e.val then s.setEff e .armed 0 else s

/-- ARM (R25, R49, R134, R348): the checks, then ARMED. ResumeArm returns to 0. -/
def State.armAct (s : State) : State × Nat :=
  match s.armRefusal with
  | some (t, st) => (if s.modState = .ready then { t with resumeArm := false } else t, st)
  | none =>
    match s.pkg.inForce with
    | none => (s, 0x0203)
    | some p =>
      let t := { s with armDict := s.dict }
      let fail := fun (code address ctx status : Nat) =>
        ({ (((s.put 0x2010 1 code).put 0x2010 2 address).put 0x2010 3 ctx) with resumeArm := false }, status)
      match t.armCheck (s.loadContexts p) with
      | some (code, address, n) => fail code address n (checkStatus code)
      | none =>
        match (if t.armNat 0x5000 4 = 0 then .ok none else (t.templateCheck).map some : Except Nat (Option (BlockHeader × Rect))) with
        | .error code => fail code (t.armNat 0x5000 5) 0xFFFF 0x0203
        | .ok tpl =>
          let t := (t.put 0x2010 1 0).prepare p tpl
          accepted (({ t with resumeArm := false } : State).goto .armed 0)

/-- ARM. -/
def execArm (q : Sess) (s : State) : Out := .next (s.command q 1 (·.armAct))

/-- DISARM frees the context (Table 7.4). -/
def Context.freedByDisarm (c : Context) : Bool := c.st == .loaded || c.st == .done || c.st == .aborted

/-- ABORT ends the context, unless it is FREE or DONE (Table 7.4). -/
def Context.abort (c : Context) : Context :=
  if c.st = .done ∨ c.st = .free then c
  else { c with st := .aborted, kept := [], area := none, saveSlot := 255, spilled := false }

/-- DISARM: contexts in LOADED, DONE or ABORTED are freed, engines are IDLE, the schedule is cancelled (R25, R301, Table
7.4). -/
def execDisarm (q : Sess) (s : State) : Out :=
  .next <| s.command q 2 fun s =>
    if s.modState ≠ .armed then refused s 0x0105
    else
      accepted (({ s with contexts := s.contexts.filter fun x => !x.2.freedByDisarm } : State).buildOver 0)

/-- START is taken (R25, R88, R348): counters cleared, the resume record discarded, the schedule cleared. -/
def State.startBuild (s : State) : State :=
  let s := (s.clearCounters).discardResume 0
  let s := s.putBlob 0x2003 1 []
  let s := { s with layer := { s.layer with first := true }, time := { s.time with scheduled := none } }
  (s.goto .building 0).emitUpdate

/-- START. -/
def execStart (q : Sess) (s : State) : Out :=
  .next <| s.command q 3 fun s =>
    if s.modState = .ready then refused s 0x0303
    else if s.modState ≠ .armed then refused s 0x0105
    else if !s.safetyOk then refused s 0x0306
    else accepted s.startBuild

/-- Enter PAUSED at a layer boundary (R25). -/
def State.enterPaused (s : State) (cause : Nat) : State :=
  (({ s with layer := { s.layer with pauseRequested := false, pauseCause := 0 } } : State).goto .paused cause).emitUpdate

/-- PAUSE is requested: taken at the next layer boundary, or now between two layers (R25, R275). -/
def State.requestPause (s : State) (cause : Nat) : State :=
  if s.layer.running then { s with layer := { s.layer with
      pauseRequested := true, pauseCause := if s.layer.pauseRequested then s.layer.pauseCause else cause } }
  else s.enterPaused cause

/-- PAUSE. -/
def execPause (q : Sess) (s : State) : Out :=
  .next <| s.command q 4 fun s =>
    if s.modState ≠ .building then refused s 0x0105 else accepted (s.requestPause 0)

/-- The layer of a context's next work; none where it has none, or its list cannot be read. -/
def State.contextLayer (s : State) (c : Context) : Option Nat :=
  match c.st with
  | .free | .done | .aborted => none
  | _ =>
    if c.injected then some c.layer
    else if s.listOver c (c.entryAt 0) then none
    else (s.listEntry c (c.entryAt 0)).bind fun l => (s.headerBytes c.space l.address).map fun b => (parseHeader b).layer

/-- A context has work left in its list. -/
def State.hasWork (s : State) (c : Context) : Bool :=
  match c.st with
  | .free | .done | .aborted => false
  | _ => c.injected || !s.listOver c (c.entryAt 0)

/-- The next layer: the lowest that any context has work in. -/
def State.nextLayer (s : State) : Option Nat :=
  (s.contexts.filterMap fun x => s.contextLayer x.2).foldl (fun m n => some (match m with | some k => min k n | none => n)) none

/-- The next layer holds a block whose mask names no engine in service (R187). -/
def State.nextUnreachable (s : State) : Bool :=
  match s.nextLayer with
  | none => false
  | some n => s.contexts.any fun x =>
      s.hasWork x.2 && !x.2.injected && (s.pendingFrom x.2 n 65536 (x.2.entryAt 0)).any fun b => !s.reachable b.2.2

/-- RESUME. -/
def execResume (q : Sess) (s : State) : Out :=
  .next <| s.command q 5 fun s =>
    if s.modState ≠ .paused then refused s 0x0105
    else if !s.safetyOk then refused s 0x0306
    else if s.nextUnreachable then refused s 0x0305
    else accepted ((s.goto .building 0).emitUpdate)

/-- ABORT: gates off at the next update, contexts ABORTED but for FREE and DONE (R25, Table 7.4). -/
def execAbort (q : Sess) (s : State) : Out :=
  .next <| s.command q 6 fun s =>
    if !s.inBuild then refused s 0x0105
    else
      let s := s.endBuild
      accepted ((({ s with contexts := s.contexts.map fun x => (x.1, x.2.abort) } : State).goto .ready 0).emitUpdate)

/-- A SAFE cause persists (Table 1.8). -/
def State.persists (s : State) : SafeCause → Bool
  | .safetyOk | .noProfile => false
  | .selftest | .outsideContinuity | .crypto | .inflaters | .mirror | .secondSensor => true
  | .tamper => s.nv.tamperLatched
  | .layerAxis a => s.axes[a].st == .fault
  | .recovery => s.recovery

/-- CLEAR_SAFE (R391). -/
def execClearSafe (q : Sess) (s : State) : Out :=
  .next <| s.command q 7 fun s =>
    if s.modState ≠ .safe then refused s 0x0105
    else if !s.safetyOk then refused s 0x0306
    else if s.safeCauses.any s.persists then refused s 0x0301
    else accepted (({ s with safeCauses := [] } : State).buildOver 0)

/-- ENTER_SERVICE. -/
def execEnterService (q : Sess) (s : State) : Out :=
  .next <| s.command q 8 fun s =>
    if s.modState ≠ .ready then refused s 0x0105 else accepted ((s.goto .service 0).emitUpdate)

/-- LEAVE_SERVICE: results pending and provisional records are gone (R196, R197). -/
def execLeaveService (q : Sess) (s : State) : Out :=
  .next <| s.command q 9 fun s =>
    if s.modState ≠ .service then refused s 0x0105 else accepted ((s.goto .ready 0).emitUpdate)

/-- RESTART: RESET, after the resume copier from PAUSED (R25, R346). -/
def execRestart (q : Sess) (s : State) : Out :=
  .next <| s.command q 10 fun s =>
    if s.modState = .building then refused s 0x0302
    else accepted (s.requestReset 0x07 0x07)

/-- SCHEDULED_START_WRITE (R301): in ARMED, an instant at least 1 ms ahead; 12 zero bytes cancel. -/
def execScheduledStartWrite (q : Sess) (data : Bytes) (s : State) : Out :=
  .next <| s.host q 0x2003 1 0 fun s =>
    if s.modState ≠ .armed then refused s 0x0303
    else if data.length ≠ 12 then refused s 0x0202
    else if data = List.replicate 12 0 then
      accepted { (s.putBlob 0x2003 1 []) with time := { s.time with scheduled := none } }
    else if 999999999 < leAt data 8 4 then refused s 0x0201
    else if s.time.status = 0 ∨ instantOf data * nsUnit < s.time.now + 1000000 * nsUnit then refused s 0x0203
    else accepted { (s.putBlob 0x2003 1 data) with time := { s.time with scheduled := some (instantOf data) } }

/-- LAYER_START_AT_WRITE (R302): the instant that the next layer start in mode 2 consumes; 12 zero bytes take it
back. -/
def execLayerStartAtWrite (q : Sess) (data : Bytes) (s : State) : Out :=
  .next <| s.host q 0x2003 4 0 fun s =>
    if data.length ≠ 12 then refused s 0x0202
    else if 999999999 < leAt data 8 4 then refused s 0x0201
    else if data = List.replicate 12 0 then
      accepted { (s.putBlob 0x2003 4 []) with time := { s.time with layerStartAt := none } }
    else accepted { (s.putBlob 0x2003 4 data) with time := { s.time with layerStartAt := some (instantOf data) } }

/-- An instant has been reached at position instant P_k (R291, R301). -/
def State.reached (s : State) (tick inst : Nat) : Bool :=
  match s.timeAt (8 * tick) with
  | some t => decide ((inst : Rat) ≤ t)
  | none => false

/-- SCHEDULED_START_REACHED: START is taken at the first P_k at or after the instant; with SAFETY_OK low the schedule is
cleared and 0x8105 recorded (R301). -/
def execScheduledStartReached (s : State) : Out :=
  match s.time.scheduled with
  | none => .next s
  | some t =>
    if s.modState ≠ .armed || s.tick % 40 ≠ 0 || !s.reached s.tick t then .next s
    else if s.safetyOk then .next s.startBuild
    else
      let s := { (s.putBlob 0x2003 1 []) with time := { s.time with scheduled := none } }
      .next (s.emit 0x8105 255 [0, t / 1000000000, t % 1000000000, 0x0306])

/-- The dwell of throttle stage 2 before a layer is over (R353). -/
def State.dwellOver (s : State) : Bool :=
  decide (s.layer.dwellUntil ≤ s.tick)
    && (s.supply.level != 3
      || (decide (s.layer.endTick + msTicks (s.nat 0x9012 2) ≤ s.tick) && decide (s.layer.endTick + msTicks (s.nat 0x9012 3) ≤ s.tick)))

/-- The time condition of a layer start (R302): a multiple of LayerSyncPeriod lies after the last position instant and
not after this one; or LayerStartAt has been reached. -/
def State.syncHolds (s : State) : Bool :=
  match s.nat 0x2003 2 with
  | 1 =>
    s.tick % 40 == 0 && match s.timeAt (8 * s.tick), s.timeAt (8 * ((s.tick : Int) - 40)) with
      | some b, some a =>
        let p : Rat := (s.nat 0x2003 3 * 1000 : Nat)
        decide (a < ((b / p).floor : Rat) * p)
      | _, _ => false
  | 2 => s.tick % 40 == 0 && (s.time.layerStartAt.any fun t => s.reached s.tick t)
  | _ => true

/-- The next layer may start (R87, R243, R302, R353). -/
def State.layerCanStart (s : State) : Bool :=
  s.modState == .building && !s.layer.running && s.layerMovesDone
    && (s.layer.first || (s.dwellOver && s.syncHolds))

/-- The layer of mode 2 starts later than its instant: record 0x8105 with the lateness in ns (R302). -/
def State.noteLate (s : State) (n : Nat) : State :=
  if s.layer.first ∨ s.nat 0x2003 2 ≠ 2 then s
  else
    match s.time.layerStartAt, s.timeAt (8 * s.tick) with
    | some t, some now =>
      let late := s.reached (s.tick - 40) t
      let s := { (s.putBlob 0x2003 4 []) with time := { s.time with layerStartAt := none } }
      if late then s.emit 0x8105 255 [n, t / 1000000000, t % 1000000000, (now - t).floor] else s
    | _, _ => s

/-- An ARMED engine with work in the layer starts it, or waits for its laser up to ReadyTimeout (R61, R86). -/
def State.startEngine (s : State) (e : EngineId) : State :=
  let work := s.contexts.any fun x =>
    x.2.owner == e.val && (x.2.st == .ready || x.2.st == .preempted || x.2.st == .blocked)
  if s.eff e ≠ .armed || !work then s
  else
    let s := s.modEngine e fun g => { g with layerDone := false }
    if s.laserReady e then
      (s.select e s.contexts.length).1.setEff e .running 0
    else
      let ms := match s.engines[e].routed with | some p => s.nat (portIx 0x4000 p) 3 | none => 0
      s.modEngine e fun g => { g with readyTimer := some (s.tick + msTicks ms) }

/-- Layer n starts (R86, R108, R149, R156, R215, R223). -/
def State.startLayer (s : State) (n : Nat) : State :=
  let s := s.noteLate n
  let s := { s with
    tokens := Vector.replicate 64 {}
    layer := { s.layer with
      number := n, running := true, first := false, moving := false, stage := 0 }
    contexts := s.contexts.map fun (i, c) =>
      if s.contextLayer c = some n then
        (i, { c with st := if c.st = .loaded then .ready else c.st, layer := n, readyAt := if c.st = .loaded then s.tick else c.readyAt })
      else (i, c) }
  let s := State.foldFin 13 s fun e s => s.startEngine e
  let s := (s.startFlatten).layerExposure
  State.foldFin 20 s fun k s => if 17 ≤ k.val ∧ s.nat (laneIx 0x580F k) 3 = 1 then s.startProfile k else s

/-- LAYER_START: the next layer starts once every condition holds (R243, R302, R353); a fault of the
crossbar or of the hardware gate-off path, which it tests, leads to SAFE (R185). -/
def execLayerStart (s : State) : Out :=
  if !s.layerCanStart then .next s
  else
    match s.nextLayer with
    | some n => if s.spare.pathFault then .next (s.enterSafe 0x0605 .outsideContinuity) else .next (s.startLayer n)
    | none => .next s

/-- Work of the layer that nobody has executed is coverage lost at its end (R52, R86, R186, R187). -/
def State.loseRest (s : State) : State :=
  let left := s.remainders.filter fun r => !((assocGet r.ctx s.contexts).any fun c => c.injected)
  let s := left.foldl (fun s r => s.loseBlock r.block.space r.block.address) s
  let s := { s with remainders := [] }
  State.foldFin 13 s fun e s => if s.engines[e].st = .fault then s.loseLayerWork e else s

/-- Injected contexts return to FREE; one not DONE records 0x5104, cause layer ended (R135). -/
def State.freeInjected (s : State) : State :=
  let gone := s.contexts.filter fun x => x.2.injected
  let s := gone.foldl (fun s x =>
    if x.2.st = .done then s else s.remeltRefused x.2.injector x.2.injectX x.2.injectY 5) s
  { s with contexts := s.contexts.filter fun x => !x.2.injected }

/-- The layer ends (R87, R135, R147, R215, R243, R353). -/
def State.endLayer (s : State) : State :=
  let s := (s.loseRest).freeInjected
  let s := { s with
    layer := { s.layer with
      running := false, moving := !s.layerAxes.isEmpty, stage := 0, endTick := s.tick, lostBlocks := []
      dwellUntil := if s.supply.level = 3 then s.tick + msTicks (s.nat 0x9012 2) else 0 } }
  let s := State.foldFin 13 s fun e s =>
    if s.nat (laneIx 0x580B (s.paramLane (laneOf e))) 6 = 0 then s.modLane (laneOf e) fun l => { l with lost := false } else s
  s.layerExposure

/-- What follows a layer end: SAFE, then coverage lost, then the end of the build or a PAUSE (R25, R26, R371). -/
def State.afterLayer (s : State) : State :=
  if s.sec.cryptoPending then
    ({ s with sec := { s.sec with cryptoPending := false } } : State).enterSafe 0x0605 .crypto
  else if s.layer.coverageLost then ({ s with layer := { s.layer with coverageLost := false } } : State).enterPaused 0x0305
  else if !(s.contexts.any fun x => s.hasWork x.2) then s.buildOver 0
  else if s.layer.pauseRequested then s.enterPaused s.layer.pauseCause
  else s

/-- LAYER_COMPLETE: the layer ends in the tick in which the last engine with work leaves it; after the last layer the
module is READY (R25, R87). -/
def execLayerComplete (s : State) : Out :=
  if s.modState ≠ .building then .next s
  else if s.layer.running then
    if s.layerOver then .next (s.endLayer).afterLayer else .next s
  else if s.sec.cryptoPending || !(s.contexts.any fun x => s.hasWork x.2) then .next s.afterLayer
  else .next s

end Sys2Proof.Machine
end

