-- ==== Sys2Proof/Machine/CalData.lean ====
section
/-!
DEFINITION. Calibration data (R189 to R193, R198, R199, R202 to R205, R208): records as bytes, fiducials, the
figures that the procedures compute.
-/
namespace Sys2Proof.Machine

/-- The record in force for an index (R189). -/
def State.recordOf (s : State) (i : Nat) : Option CalRec := s.records.toList.getD i none

/-- Put a record in force (R192). -/
def State.setRecord (s : State) (i : Nat) (r : Option CalRec) : State :=
  if h : i < 13 then { s with records := s.records.set i r } else s

/-- The 32-byte header (Table 9.1). -/
def calHeader (i length : Nat) (r : CalRec) : Bytes :=
  leBytes 2 0x4C43 ++ leBytes 1 (if i = 12 then 2 else 1) ++ leBytes 1 i ++ leBytes 4 r.generation ++ leBytes 4 length
    ++ leBytes 4 0 ++ leBytes 8 r.headIdentity ++ leBytes 8 r.calTime

/-- Two's complement octets. -/
def leInt (n : Nat) (v : Int) : Bytes := leBytes n (unsigned (8 * n) v)

/-- The two's complement field of n octets at an offset. -/
def intAt (b : Bytes) (o n : Nat) : Int := signed (8 * n) (leAt b o n)

/-- The node index of a map node in the record (Table 9.2). -/
def nodeIndex (n : Nat × Nat × Int × Int × Int) : Nat := 129 * n.2.1 + n.1

/-- Length of a record (Tables 9.2 and 9.3). -/
def calLength (i : Nat) : Nat := if i = 12 then 0x140 else 0x30C70

/-- A record as bytes (Tables 9.1 to 9.3). -/
def calBytes (i : Nat) (r : CalRec) : Bytes :=
  let body :=
    if i = 12 then
      ((List.range 33).flatMap fun m => leInt 4 (r.oscTable.getD m 0))
        ++ ((List.range 19).flatMap fun m => leInt 2 (r.sensorOffset.getD m 0)) ++ leBytes 2 0
        ++ leInt 4 r.adcRefOffset ++ leInt 4 r.adcRefTempco ++ (r.phaseCode ++ List.replicate 104 0).take 104
    else
      leBytes 4 r.w ++ leBytes 4 r.f ++ leInt 4 r.tCal ++ leInt 4 r.gx ++ leInt 4 r.gy ++ leInt 4 r.ox ++ leInt 4 r.oy
        ++ leInt 4 r.oz ++ leBytes 2 r.offsetA ++ leBytes 2 r.gainA ++ leBytes 2 r.offsetB ++ leBytes 2 r.gainB
        ++ leBytes 2 r.gateAlign ++ leBytes 2 r.fullScaleFit ++ leBytes 2 r.posRms ++ leBytes 2 r.posMax
        ++ leBytes 2 r.focusRms ++ leBytes 2 r.seamMax ++ leBytes 2 r.powerResidual ++ List.replicate 10 0
        ++ (List.range 129).flatMap fun (j : Nat) => (List.range 129).flatMap fun (k : Nat) =>
          let d := mapNode r.map k j
          leInt 4 d.1 ++ leInt 4 d.2.1 ++ leInt 4 d.2.2
  let b := calHeader i (calLength i) r ++ body
  b ++ leBytes 4 (crc32c b)

/-- The record that bytes spell (Tables 9.1 to 9.3). -/
def parseCal (i : Nat) (b : Bytes) : CalRec :=
  let r : CalRec := { generation := leAt b 0x04 4, headIdentity := leAt b 0x10 8, calTime := leAt b 0x18 8 }
  if i = 12 then
    { r with
      oscTable := (List.range 33).map fun m => intAt b (0x20 + 4 * m) 4
      sensorOffset := (List.range 19).map fun m => intAt b (0xA4 + 2 * m) 2
      adcRefOffset := intAt b 0xCC 4, adcRefTempco := intAt b 0xD0 4, phaseCode := slice b 0xD4 104 }
  else
    { r with
      w := leAt b 0x20 4, f := leAt b 0x24 4, tCal := intAt b 0x28 4, gx := intAt b 0x2C 4, gy := intAt b 0x30 4
      ox := intAt b 0x34 4, oy := intAt b 0x38 4, oz := intAt b 0x3C 4
      offsetA := leAt b 0x40 2, gainA := leAt b 0x42 2, offsetB := leAt b 0x44 2, gainB := leAt b 0x46 2
      gateAlign := leAt b 0x48 2, fullScaleFit := leAt b 0x4A 2, posRms := leAt b 0x4C 2, posMax := leAt b 0x4E 2
      focusRms := leAt b 0x50 2, seamMax := leAt b 0x52 2, powerResidual := leAt b 0x54 2
      map := (List.range 16641).filterMap fun n =>
        let o := 0x60 + 12 * n
        let d := (intAt b o 4, intAt b (o + 4) 4, intAt b (o + 8) 4)
        if d = (0, 0, 0) then none else some (n % 129, n / 129, d) }

/-- The status with which an import is refused, 0 where it is accepted (R193). -/
def importCheck (i : Nat) (b : Bytes) : Nat :=
  if b.length < 36 then 0x0203
  else if leAt b (b.length - 4) 4 ≠ crc32c (b.take (b.length - 4)) then 0x0703
  else if leAt b 0 2 ≠ 0x4C43 || leAt b 2 1 ≠ (if i = 12 then 2 else 1) || leAt b 3 1 ≠ i || leAt b 8 4 ≠ b.length
      || b.length ≠ calLength i then 0x0203
  else 0

/-- RecordStatus (0xE030.01). -/
def State.recordStatus (s : State) (i : Nat) : Nat :=
  let r := s.recordOf i
  b2n (assocGet i s.nv.copyA).isSome + 2 * b2n (assocGet i s.nv.copyB).isSome + 4 * b2n r.isSome
    + 8 * b2n (r.any (·.provisional)) + 16 * b2n (r.any (·.factory))

/-- Highest Generation of the valid working copies, 0 if none (R192). -/
def State.lastGeneration (s : State) (i : Nat) : Nat :=
  max ((assocGet i s.nv.copyA).map (·.generation) |>.getD 0) ((assocGet i s.nv.copyB).map (·.generation) |>.getD 0)

/-- Copy A is written first: the invalid or older one (R192). Of two copies of one Generation, B; of two invalid
ones, A (row 16). -/
def State.firstIsA (s : State) (i : Nat) : Bool :=
  match assocGet i s.nv.copyA, assocGet i s.nv.copyB with
  | none, _ => true
  | some _, none => false
  | some a, some b => decide (a.generation < b.generation)

/-- Fiducials as certified, scaled to PlateTemperature about the bed origin (R198), in bed units. -/
def State.fiducials (s : State) : List (Rat × Rat) :=
  let b := s.blob 0xE010 1
  let k : Rat := 1 + s.val 0xE010 5 * (s.val 0xE010 3 - s.val 0xE010 4) / (100 * 1000000000 : Int)
  (List.range (b.length / 12)).map fun n =>
    ((intAt b (12 * n) 4 : Rat) * k, (intAt b (12 * n + 4) 4 : Rat) * k)

/-- The fiducials in the head square of laser p, in its head coordinates to the nearest bed unit (R199). -/
def State.headFiducials (s : State) (p : LaserId) (r : CalRec) : List (Int × Int) :=
  let half : Int := r.w * 200
  let pl : Placement :=
    { xc := s.val (0x2810 + p.val) 1, yc := s.val (0x2810 + p.val) 2, rot := s.val (0x2810 + p.val) 3 }
  (s.fiducials.map fun f => let h := headXY pl f.1 f.2; (nearest h.1, nearest h.2)).filter fun h =>
    decide (-half ≤ h.1) && decide (h.1 ≤ half) && decide (-half ≤ h.2) && decide (h.2 ≤ half)

/-- A gap of a length among rising values between lo and hi, ends included, values excluded. -/
def gapFrom (len hi : Int) : Int → List Int → Bool
  | lo, [] => decide (len ≤ hi - lo)
  | lo, v :: t => decide (len ≤ v - 1 - lo) || gapFrom len hi (v + 1) t

/-- Some 64 × 64 mm square of the head square holds no fiducial (R199). -/
def emptySquare (half : Int) (f : List (Int × Int)) : Bool :=
  let side : Int := 2560000
  ((-half) :: f.map fun (h : Int × Int) => h.1 + 1).any fun x =>
    decide (x + side ≤ half) &&
      gapFrom side half (-half) (((f.filter fun h => decide (x ≤ h.1) && decide (h.1 ≤ x + side)).map (·.2)).mergeSort)

/-- Root mean square, to the nearest unit. -/
def rms (l : List Nat) : Nat :=
  match l with
  | [] => 0
  | l => (isqrt (4 * ((l.map fun v => v * v).sum) / l.length) + 1) / 2

def maxOf (l : List Nat) : Nat := l.foldl max 0

/-- New ΔX and ΔY at the fitted nodes, 0 at the others, each with the ΔZ it has (R199). -/
def mapXY (old fit : List (Nat × Nat × Int × Int × Int)) : List (Nat × Nat × Int × Int × Int) :=
  let zs := old.filterMap fun (i, j, _, _, z) =>
    if z = 0 || fit.any fun n => n.1 == i && n.2.1 == j then none else some (i, j, (0 : Int), (0 : Int), z)
  (fit.map fun (i, j, x, y, _) => (i, j, x, y, (mapNode old i j).2.2)) ++ zs

/-- New ΔZ at the fitted nodes, 0 at the others, each with the ΔX and ΔY it has (R200). -/
def mapZ (old fit : List (Nat × Nat × Int × Int × Int)) : List (Nat × Nat × Int × Int × Int) :=
  let xys := old.filterMap fun (i, j, x, y, _) =>
    if (x = 0 && y = 0) || fit.any fun n => n.1 == i && n.2.1 == j then none else some (i, j, x, y, (0 : Int))
  (fit.map fun (i, j, _, _, z) => let d := mapNode old i j; (i, j, d.1, d.2.1, z)) ++ xys

/-- Least-squares slope through the origin of a quantity against ΔT in K (R202). -/
def slope (l : List (Int × Int)) : Int :=
  let num := (l.map fun (x : Int × Int) => x.1 * x.2).sum
  let den := (l.map fun (x : Int × Int) => x.1 * x.1).sum
  if den = 0 then 0 else roundDiv (100 * num) den.toNat

/-- Refit the drift coefficients from stored points (R202). -/
def refit (r : CalRec) (l : List DriftPoint) : CalRec :=
  let f := fun (g : DriftPoint → Int) => slope (l.map fun d => (d.tHead - r.tCal, g d))
  { r with gx := f (·.gx), gy := f (·.gy), ox := f (·.ox), oy := f (·.oy), oz := f (·.oz) }

/-- Stored points span at least 5 K (R202). -/
def span5K (l : List DriftPoint) : Bool :=
  match l with
  | [] => false
  | d :: t =>
    decide (500 ≤ t.foldl (fun a x => max a x.tHead) d.tHead - t.foldl (fun a x => min a x.tHead) d.tHead)

/-- Σ k·P and Σ k² over the levels k = 1, 2, …, readings in mW (R204). -/
def powerSums (l : List Nat) : Nat × Nat :=
  ((l.zipIdx.map fun (x : Nat × Nat) => (x.2 + 1) * x.1).sum, (l.zipIdx.map fun (x : Nat × Nat) => (x.2 + 1) * (x.2 + 1)).sum)

/-- FullScaleFit in W and PowerResidual in 0.01 %, each to the nearest unit (R204, Table 9.5): with N levels,
a = N·Σ k·P / Σ k². No residual is stated where every reading is 0. -/
def powerFit (n : Nat) (l : List Nat) : Nat × Option Nat :=
  let (s1, s2) := powerSums l
  let fit := (2 * n * s1 + 1000 * s2) / (2000 * s2)
  if s1 = 0 then (fit, none)
  else
    let worst := maxOf (l.zipIdx.map fun (x : Nat × Nat) => ((x.1 * s2 : Nat) - ((x.2 + 1) * s1 : Nat) : Int).natAbs)
    (fit, some ((2 * 10000 * worst + n * s1) / (2 * n * s1)))

/-- A photodiode gain (R205); none where it is outside its range. -/
def pdGainOf (target off on : Nat) : Option Nat :=
  if on ≤ off then none
  else
    let g := (2 * 4096 * target + (on - off)) / (2 * (on - off))
    if 1 ≤ g ∧ g ≤ 65535 then some g else none

/-- Replace the bins with at least 60 s of data (R208). -/
def oscBins (old : List Int) (bins : List (Nat × Int × Nat)) : List Int :=
  (List.range 33).map fun m =>
    match bins.find? fun b => b.1 == m && decide (60 ≤ b.2.2) with
    | some b => b.2.1
    | none => old.getD m 0

end Sys2Proof.Machine
end

