-- ==== Sys2Proof/Machine/Calibration.lean ====
section
/-!
DEFINITION. Calibration procedures and record commits (R192 to R209).
-/
namespace Sys2Proof.Machine

/-- A figure in the 16 bits of its entry; what an entry shows of a larger one is a free value (row 10). -/
def State.fit16 (s : State) (v : Nat) : Nat × State :=
  if v ≤ 65535 then (v, s) else let r := s.takeFree; (r.1 % 65536, r.2)

/-- Put a quality figure into its entry 0xE001 (Table 9.6). -/
def State.figure (s : State) (sub v : Nat) : State × Nat :=
  let r := s.fit16 v
  (r.2.put 0xE001 sub r.1, r.1)

/-- The gate of a laser under calibration goes low and its EMIT_EN follows R83. -/
def State.calQuiet (s : State) : State :=
  let s := if h : s.cal.laser < 12 then
      match s.engineOf ⟨s.cal.laser, h⟩ with
      | some e => s.modEngine e fun g => { (g.gateOffAt (8 * s.tick)) with par := { g.par with power := 0 } }
      | none => s
    else s
  let s := if s.cal.procedure = 0x0A then { s with supply := { s.supply with shed := false } } else s
  s.emitUpdate

/-- A procedure ends with a CalResult and, when that is 0, results pending; record 0xE102 with its figures
(R194, R196). -/
def State.calEnd (s : State) (result : Nat) (pending : List (Nat × CalRec)) (figures : List Nat) : State :=
  let s := { s with cal := { s.cal with
    state := if result = 0 then 3 else 0, result := result, readingTimer := none, abort := none
    pending := if result = 0 then pending else [] } }
  (s.emit 0xE102 255 ([(s.cal.procedure : Int), s.cal.laser, result] ++ figures.map fun (f : Nat) => (f : Int))).calQuiet

/-- A procedure ends without results (R195), record 0xE108; the spec gives no CalResult for it: a free value. -/
def State.calAbort (s : State) (cause : Nat) : State :=
  let r := s.takeFree
  let s := { r.2 with cal := { r.2.cal with
    state := 0, result := r.1 % 65536, readingTimer := none, abort := none, pending := [] } }
  (s.emit 0xE108 255 [s.cal.procedure, s.cal.laser, cause]).calQuiet

/-- A procedure, a commit or an import is under way (R194). -/
def State.calBusy (s : State) : Bool := s.cal.running || s.cal.state == 4 || !s.cal.committing.isEmpty

/-- Ticks that a procedure takes at least: 4,000 updates (R201); 4,000 samples and 0.1 s (R205); 409.6 µs (R206);
600 s (R207). -/
def calTicks (code : Nat) : Nat :=
  if code = 0x04 then 160000 else if code = 0x08 then 8080000 else if code = 0x09 then 32768
  else if code = 0x0A then 48000000000 else 0

/-- Start a procedure: CalCommand is written with its code and laser, in the order of refusals of R278 and R194.
`pre` is the precondition of Table 9.4, `act` what the start does. Results pending are discarded (R196). -/
def State.startCal (s : State) (q : Sess) (code : Nat) (p : Byte) (pre : State → Bool) (act : State → State) : State :=
  s.host q 0xE000 1 (256 * code + p.toNat) fun s =>
    let noLaser := code == 0x06 || code == 0x0A || code == 0x0B
    if !calAllowed code s.modState then refused s 0x0105
    else if (if noLaser then p.toNat != 255 else decide (11 < p.toNat)) then refused s 0x0201
    else if s.calBusy then refused s 0x0301
    else if !pre s then refused s 0x0203
    else
      let s := s.put 0xE000 1 (256 * code + p.toNat)
      let s := { s with cal := { s.cal with
        procedure := code, laser := p.toNat, state := 1, level := 0, readings := [], readingTimer := none, pending := []
        abort := none, doneAt := s.tick + calTicks code } }
      accepted (act ((s.emit 0xE101 255 [code, p.toNat]).emitUpdate))

/-- The laser that a byte names. -/
def laserOf (p : Byte) : Option LaserId := if h : p.toNat < 12 then some ⟨p.toNat, h⟩ else none

/-- A record is in force for the laser (its link is UP against one). -/
def State.hasRecord (s : State) (p : Byte) : Bool := (s.recordOf p.toNat).isSome

/-- The head of laser p stands at a bed position with a power in OPEN mode, the gate rising and falling at the
given ticks (R204, R205). -/
def State.calPoint (s : State) (p : Nat) (x y : Int) (power : Nat) (on : Nat) (off : Option Nat) : State :=
  if h : p < 12 then
    match s.engineOf ⟨p, h⟩ with
    | none => s
    | some e =>
      (s.modEngine e fun g =>
        let g := g.gateOffAt (8 * s.tick)
        { g with
          plan := [], planEnd := upd * s.update, posX := x * 65536, posY := y * 65536, everSet := true
          par := { g.par with power := power, mode := 0 }
          edges := g.edges ++ [⟨8 * (on : Int), true, power⟩] ++ match off with | some t => [⟨8 * (t : Int), false, 0⟩] | none => [] })
        |>.modLane ⟨e.val, by have := e.isLt; omega⟩ fun n => { n with programmed := .open }
  else s

/-- INIT_HEAD: a provisional record from registers 6 and 7, zero map and drift, T_cal the present temperature;
the link restarts (R197). -/
def execInitHead (q : Sess) (p : Byte) (s : State) : Out :=
  .next <| s.startCal q 0x01 p (fun s => (laserOf p).any fun l => decide (s.lasers[l].regs.length = 8)) fun s =>
    match laserOf p with
    | none => s
    | some l =>
      let x := s.lasers[l]
      let r : CalRec :=
        { headIdentity := headIdentity x.regs, w := x.regs.getD 6 0, f := x.regs.getD 7 0
          tCal := roundDiv x.tHeadNum x.tHeadDen, provisional := true }
      let s := s.setRecord p.toNat (some r)
      let s := { s with cal := { s.cal with headMapAccepted := vmod s.cal.headMapAccepted l fun _ => false } }
      let s := s.calEnd 0 [] []
      (s.loseLaser l .link).startLink l

/-- HEAD_MAP: refused where the head square holds fewer than 81 fiducials or has an empty 64 mm square (R199). -/
def execHeadMap (q : Sess) (p : Byte) (s : State) : Out :=
  .next <| s.startCal q 0x02 p
    (fun s => match laserOf p, s.recordOf p.toNat with
      | some l, some r =>
        let f := s.headFiducials l r
        decide (81 ≤ f.length) && !emptySquare (r.w * 200) f
      | _, _ => false) id

/-- FOCUS_MAP (R200). -/
def execFocusMap (q : Sess) (p : Byte) (s : State) : Out := .next <| s.startCal q 0x03 p (·.hasRecord p) id

/-- Legs of a triangle of an amplitude about a start, as pieces of the path at 2 m/s, 40 bed units an update. -/
def triangle (g : Engine) : Nat → Int → Nat → Engine
  | 0, _, _ => g
  | f + 1, target, left =>
    let d := (target - bedUnit g.posX).natAbs
    let n := min left (d / 40)
    if n = 0 then g
    else
      let x1 := g.posX + (if bedUnit g.posX < target then 1 else -1) * (n * 40 * 65536)
      triangle (g.plan1 { g.piece .mark g.planEnd (n * upd) with x1 := x1, power := 0 }) f (-target) (left - n)

/-- GATE_ALIGN: X sweeps a triangle of amplitude W/8 at 2 m/s for 4,000 updates with the gate off (R201). -/
def execGateAlign (q : Sess) (p : Byte) (s : State) : Out :=
  .next <| s.startCal q 0x04 p (·.hasRecord p) fun s =>
    match (laserOf p).bind s.engineOf, s.recordOf p.toNat with
    | some e, some r => s.modEngine e fun g =>
        triangle { g with plan := [], planEnd := upd * (s.update + leadUpdates + 1) } 4000 (r.w * 50) 4000
    | _, _ => s

/-- DRIFT_POINT (R202). -/
def execDriftPoint (q : Sess) (p : Byte) (s : State) : Out := .next <| s.startCal q 0x05 p (·.hasRecord p) id

/-- CROSS_CHECK (R203). -/
def execCrossCheck (q : Sess) (p : Byte) (s : State) : Out := .next <| s.startCal q 0x06 p (fun _ => true) id

/-- The level k of POWER_LIN: POWER = round(65,535·k / PowerLevels), the gate on; a reading is awaited (R204). -/
def State.powerLevel (s : State) (k : Nat) : State :=
  let n := s.nat 0xE011 4
  let s := s.calPoint s.cal.laser (s.val 0xE011 2) (s.val 0xE011 3) ((2 * 65535 * k + n) / (2 * n)) s.tick none
  { s with cal := { s.cal with level := k, state := 2, readingTimer := some (s.tick + s.nat 0xE011 5 * 80000000) } }

/-- POWER_LIN (R204). -/
def execPowerLin (q : Sess) (p : Byte) (s : State) : Out :=
  .next <| s.startCal q 0x07 p (·.hasRecord p) fun s => s.powerLevel 1

/-- POWER_READING: the reading awaited is taken and the next level set (R204). -/
def execPowerReading (q : Sess) (milliwatt : BitVec 32) (s : State) : Out :=
  .next <| s.host q 0xE011 1 milliwatt.toNat fun s =>
    let s := s.put 0xE011 1 milliwatt.toNat
    if s.cal.procedure = 7 ∧ s.cal.state = 2 then
      let s := { s with cal := { s.cal with
        readings := s.cal.readings ++ [milliwatt.toNat], state := 1, readingTimer := none } }
      if s.cal.level < s.nat 0xE011 4 then accepted (s.powerLevel (s.cal.level + 1)) else accepted s
    else accepted s

/-- READING_TIMEOUT: the reading was not written within ReadingTimeout (R204, R27). -/
def execReadingTimeout (s : State) : Out :=
  match s.cal.readingTimer with
  | some t => if s.tick < t then .next s else .next (s.calAbort 5)
  | none => .next s

/-- PD_GAIN: 4,000 samples with the gate off, then 0.1 s with the gate on at PdRefPower (R205). -/
def execPdGain (q : Sess) (p : Byte) (s : State) : Out :=
  .next <| s.startCal q 0x08 p (·.hasRecord p) fun s =>
    s.calPoint p.toNat (s.val 0xE012 3) (s.val 0xE012 4) (s.nat 0xE012 2) (s.tick + 80000) (some (s.tick + 8080000))

/-- LINK_EYE: the named link restarts under R76; in READY only while its engine is IDLE (R206). -/
def execLinkEye (q : Sess) (p : Byte) (s : State) : Out :=
  .next <| s.startCal q 0x09 p
    (fun s => s.modState != .ready || (((laserOf p).bind s.engineOf).all fun e => s.engines[e].st == .idle))
    fun s => match laserOf p with
      | some l => (s.loseLaser l .link).startLink l
      | none => s

/-- SENSOR_OFFSET: the load is shed as in HOLDUP (R207). -/
def execSensorOffset (q : Sess) (p : Byte) (s : State) : Out := .next <| s.startCal q 0x0A p (fun _ => true) (·.shedLoad)

/-- Device time is disciplined to network time as a slave: LOCKING or LOCKED (R208, Table 13.1). -/
def State.disciplined (s : State) : Bool := s.time.status == 2 || s.time.status == 3

/-- OSC_MODEL (R208). -/
def execOscModel (q : Sess) (p : Byte) (s : State) : Out := .next <| s.startCal q 0x0B p (·.disciplined) id

/-- CAL_STOP: 0xFF00 stops the procedure without results (R195). -/
def execCalStop (q : Sess) (s : State) : Out :=
  .next <| s.host q 0xE000 1 0xFF00 fun s =>
    let s := s.put 0xE000 1 0xFF00
    accepted (if s.cal.running then s.calAbort 4 else s)

/-- CAL_ABORTED: the procedure's state was left, a takeover or loss of its laser occurred, or discipline was lost
(R195, R208). -/
def execCalAborted (s : State) : Out :=
  if !s.cal.running then .next s
  else
    match s.cal.abort with
    | some c => .next (s.calAbort c)
    | none => if s.cal.procedure = 0x0B && !s.disciplined then .next (s.calAbort 6) else .next s

/-- Two field regions in force intersect (R90, R203). -/
def State.regionsMeet (s : State) (a b : Nat) : Bool :=
  let r := fun (p j : Nat) => s.val (0x2810 + p) j
  decide (r a 4 ≤ r b 5) && decide (r b 4 ≤ r a 5) && decide (r a 6 ≤ r b 7) && decide (r b 6 ≤ r a 7)

/-- Heads that share a region with another (R203). -/
def State.crossHeads (s : State) : List Nat :=
  (List.range 12).filter fun a => (s.recordOf a).isSome && (List.range 12).any fun b =>
    a != b && (s.recordOf b).isSome && s.regionsMeet a b

/-- CAL_DONE: the procedure ends; its results are pending, its figures in Table 9.6 (R196, R199 to R208). An
observation of another procedure ends nothing, nor does one before the procedure's own time has passed. -/
def execCalDone (obs : CalObs) (s : State) : Out :=
  if !s.cal.running || decide (s.tick < s.cal.doneAt) then .next s
  else
    let p := s.cal.laser
    let r := (s.recordOf p).getD {}
    match s.cal.procedure, obs with
    | 0x02, .map residuals errors tHead =>
      let a := s.figure 1 (rms residuals)
      let b := a.1.figure 2 (maxOf residuals)
      .next <| b.1.calEnd 0
        [(p, { r with map := mapXY r.map (Config.mapFit errors), tCal := tHead, posRms := a.2, posMax := b.2 })] [a.2, b.2]
    | 0x03, .focus residuals errors =>
      let a := s.figure 3 (rms residuals)
      .next <| a.1.calEnd 0 [(p, { r with map := mapZ r.map (Config.mapFit errors), focusRms := a.2 })] [a.2]
    | 0x04, .lag e =>
      if e < 0 ∨ 640 < e then .next (s.calEnd 0x0201 [] [])
      else .next (s.calEnd 0 [(p, { r with gateAlign := e.toNat })] [])
    | 0x05, .drift residuals tHead gx gy ox oy oz =>
      let a := s.figure 1 (rms residuals)
      let pt : DriftPoint := { laser := p, tHead := tHead, gx := gx, gy := gy, ox := ox, oy := oy, oz := oz }
      let old := a.1.cal.driftPoints.filter fun d => d.laser == p
      let all := (old ++ [pt]).drop (old.length + 1 - 16)
      let rest := a.1.cal.driftPoints.filter fun d => d.laser != p
      let t := { a.1 with cal := { a.1.cal with driftPending := rest ++ all } }
      .next <| t.calEnd 0 (if 3 ≤ old.length && span5K old then [(p, refit r all)] else []) [a.2]
    | 0x06, .cross seam =>
      let heads := s.crossHeads
      let a := s.figure 4 (maxOf (heads.map fun h => seam.getD h 0))
      .next <| a.1.calEnd 0 (heads.filterMap fun h =>
        (s.recordOf h).map fun c => (h, { c with seamMax := min (seam.getD h 0) 65535 })) [a.2]
    | 0x07, .power =>
      if s.cal.state ≠ 1 then .next s
      else
        let f := powerFit s.cal.readings.length s.cal.readings
        let w := s.fit16 f.1
        let a : State × Nat := match f.2 with
          | some v => w.2.figure 5 v
          | none => let x := w.2.takeFree; x.2.figure 5 (x.1 % 65536)
        .next <| a.1.calEnd 0 [(p, { r with fullScaleFit := w.1, powerResidual := a.2 })] [a.2]
    | 0x08, .pd offA onA offB onB =>
      match pdGainOf (s.nat 0xE012 1) offA onA, pdGainOf (s.nat 0xE012 1) offB onB with
      | some ga, some gb =>
        .next (s.calEnd 0 [(p, { r with offsetA := offA, gainA := ga, offsetB := offB, gainB := gb })] [])
      | _, _ => .next (s.calEnd 0x0201 [] [])
    | 0x09, .eye phases =>
      if h : p < 12 then .next ((s.scanEye ⟨p, h⟩ phases).calEnd 0 [] [(eyeRun phases 64 0 0 (0, 0)).1]) else .next s
    | 0x0A, .sensor r16 r17 r18 =>
      let m := (s.recordOf 12).getD {}
      let offs := [r16, r17, r18].map fun v => s.val 0xE013 1 - v
      if offs.any fun v => decide (v < -300) || decide (300 < v) then .next (s.calEnd 0x0201 [] [])
      else
        let old := m.sensorOffset ++ List.replicate (16 - m.sensorOffset.length) 0
        .next (s.calEnd 0 [(12, { m with sensorOffset := old.take 16 ++ offs })] [])
    | 0x0B, .osc bins residual =>
      let m := (s.recordOf 12).getD {}
      let a := s.figure 6 residual
      .next (a.1.calEnd 0 [(12, { m with oscTable := oscBins m.oscTable bins })] [a.2])
    | _, _ => .next s

/-- The figures of a procedure lie within their limits (R196, Table 9.6). -/
def State.figuresOk (s : State) : Bool :=
  let ok := fun (f l : Nat) => decide (s.nat 0xE001 f ≤ s.nat 0xE003 l)
  match s.cal.procedure with
  | 0x02 => ok 1 1 && ok 2 2
  | 0x03 => ok 3 3
  | 0x05 => ok 1 1
  | 0x06 => ok 4 4
  | 0x07 => ok 5 5
  | 0x0B => ok 6 7
  | _ => true

/-- A provisional record is committed only through an accepted HEAD_MAP or once one has been accepted (R197). -/
def State.provisionalOk (s : State) : Bool :=
  s.cal.pending.all fun (i, c) =>
    !c.provisional || s.cal.procedure == 0x02 || s.cal.headMapAccepted.toList.getD i false

/-- Put a calibrated value into its profile entry where it lies in the entry's range. -/
def State.putFit (s : State) (index sub : Nat) (v : Nat) : State :=
  match findEntry index sub with
  | some d => if inRange d v then s.put index sub v else s
  | none => s

/-- CAL_ACCEPT_COMMIT: results are committed when their figures are within limits (R196); GateAlign and
FullScalePower take theirs. -/
def execCalAcceptCommit (q : Sess) (s : State) : Out :=
  .next <| s.host q 0xE000 5 1 fun s =>
    if s.cal.state = 1 ∨ s.cal.state = 2 ∨ s.cal.state = 4 then refused s 0x0301
    else if s.cal.state ≠ 3 then refused s 0x0203
    else if s.cal.procedure = 0x01 || !s.figuresOk || !s.provisionalOk then refused s 0x0203
    else
      let s := s.put 0xE000 5 1
      let p := s.cal.laser
      let s := match s.cal.procedure, s.cal.pending with
        | 0x04, [(_, c)] => s.putFit (0x4000 + 0x100 * p) 1 c.gateAlign
        | 0x07, [(_, c)] => s.putFit (0x4002 + 0x100 * p) 1 c.fullScaleFit
        | _, _ => s
      let s : State := match s.cal.procedure with
        | 0x02 => if h : p < 12 then
            { s with cal := { s.cal with headMapAccepted := s.cal.headMapAccepted.set p true } } else s
        | 0x05 => { s with cal := { s.cal with driftPoints := s.cal.driftPending } }
        | _ => s
      accepted { s with cal := { s.cal with
        committing := s.cal.committing ++ s.cal.pending.map fun x => (x.1, s.cal.procedure, x.2)
        state := if s.cal.pending.isEmpty then 0 else 4, pending := [] } }

/-- CAL_ACCEPT_DISCARD: the results are discarded (R196). -/
def execCalAcceptDiscard (q : Sess) (s : State) : Out :=
  .next <| s.host q 0xE000 5 2 fun s =>
    let s := s.put 0xE000 5 2
    accepted (if s.cal.state = 3 then { s with cal := { s.cal with state := 0, pending := [] } } else s)

/-- RECORD_IMPORT: a complete record is checked and its commit begins (R193). -/
def execRecordImport (q : Sess) (r : Fin 13) (data : Bytes) (s : State) : Out :=
  .next <| s.host q (0xE030 + r.val) 3 data.length fun s =>
    if s.modState ≠ .ready ∧ s.modState ≠ .service then refused s 0x0105
    else if s.calBusy then refused s 0x0301
    else
      match importCheck r.val data with
      | 0 => accepted { s with cal := { s.cal with
          committing := [(r.val, 0, parseCal r.val data)], state := if s.cal.state = 0 then 4 else s.cal.state } }
      | e => refused s e

/-- A copy is programmed: up to two attempts; the attempts left, and whether it holds. None: the supply failed
before an attempt ended. -/
def tryCopy : List Bool → Option (List Bool × Bool)
  | true :: t => some (t, true)
  | false :: true :: t => some (t, true)
  | false :: false :: t => some (t, false)
  | _ => none

/-- The directory entry of a copy: its Generation and check word (R190). -/
def dirEntry (i : Nat) (c : CalRec) : Nat × Nat := (c.generation, leAt (calBytes i c) (calLength i - 4) 4)

/-- Put a copy's contents and, with them, its directory entry; none is an invalid copy (R190, R192). -/
def State.setCopy (s : State) (a : Bool) (i : Nat) (c : Option CalRec) : State :=
  let f := fun (l : List (Nat × CalRec)) => match c with | some c => assocPut i c l | none => assocDel i l
  let d := fun (l : List (Nat × Nat × Nat)) => match c with | some c => assocPut i (dirEntry i c) l | none => assocDel i l
  if a then { s with nv := { s.nv with copyA := f s.nv.copyA, dirA := d s.nv.dirA } }
  else { s with nv := { s.nv with copyB := f s.nv.copyB, dirB := d s.nv.dirB } }

/-- The working copy of an index, where it is valid (R190): read back correctly, and equal to its directory entry unless
that entry fails its ECC. -/
def State.validCopy (s : State) (a : Bool) (i : Nat) (readOk dirBad : Bool) : Option CalRec :=
  if !readOk then none
  else
    (assocGet i (if a then s.nv.copyA else s.nv.copyB)).filter fun c =>
      dirBad || assocGet i (if a then s.nv.dirA else s.nv.dirB) == some (dirEntry i c)

/-- A link that stopped at an identity mismatch starts again once its head's record is committed or imported (R76). -/
def State.retryMismatch (s : State) (i : Nat) : State :=
  match (List.finRange 12).find? fun (p : LaserId) => p.val == i with
  | some p => if s.lasers[p].mismatch && linksRun s.modState then s.startLink p else s
  | none => s

/-- The identity of the head against a record newly in force (R191, 0xE030.04). -/
def State.checkIdentity (s : State) (i : Nat) (c : CalRec) : State :=
  if h : i < 12 then
    if s.lasers[i].link != .up then s
    else
      let ident := s.nat (0x4009 + 0x100 * i) 7
      if c.headIdentity = ident then s.put (0xE030 + i) 4 1
      else (s.put (0xE030 + i) 4 0).emit 0xE106 i [i, c.headIdentity, ident]
  else s

/-- RECORD_COMMIT_DONE: the copies of the record at the head of the commit list are written in turn with the next
Generation, the attempts ending as `programmed` says (R192). -/
def execRecordCommitDone (programmed : List Bool) (s : State) : Out :=
  match s.cal.committing with
  | [] => .next s
  | (i, procedure, c) :: rest =>
    let g := s.lastGeneration i + 1
    let codes := ((s.recordOf i).map (·.phaseCode)).getD []
    let ident := if i < 12 && procedure != 0 then s.nat (0x4009 + 0x100 * i) 7 else c.headIdentity
    let c := { c with
      generation := g, calTime := s.deviceTime.1, provisional := false, factory := false
      headIdentity := if i = 12 then 0 else ident
      phaseCode := if i = 12 && procedure != 0 then codes else c.phaseCode }
    let first := s.firstIsA i
    let s := { s with cal := { s.cal with
      committing := rest, state := if s.cal.state = 4 && rest.isEmpty then 0 else s.cal.state } }
    let name := fun (a : Bool) => if a then (0 : Int) else 1
    match tryCopy programmed with
    | none => .next (s.setCopy first i none)
    | some (_, false) => .next ((s.setCopy first i none).emit 0xE105 255 [i, name first, 4])
    | some (more, true) =>
      let s := (s.setCopy first i (some c)).setRecord i (some c)
      let s := ((s.retryMismatch i).checkIdentity i c).emit 0xE103 255 [i, g, procedure]
      match tryCopy more with
      | none => .next s
      | some (_, false) => .next ((s.setCopy (!first) i none).emit 0xE105 255 [i, name (!first), 4])
      | some (_, true) => .next (s.setCopy (!first) i (some c))

end Sys2Proof.Machine
end

