-- ==== Sys2Proof/Machine/Petals.lean ====
section
/-!
DEFINITION. Petal illumination (R228 to R233): scans, PWM, NTC compensation, strobes and open strings.
-/
namespace Sys2Proof.Machine

/-- Reverse of 6 bits (R230). -/
def bitrev6 (n : Nat) : Nat := ofBits ((msbBits 6 n))

/-- In scan m of a PWM cycle a string of effective duty d is on in step t (R230). -/
def pwmOn (d m t : Nat) : Bool := decide (bitrev6 t < d / 64 + (if bitrev6 m < d % 64 then 1 else 0))

/-- In a strobe scan (R233). -/
def strobeOn (d t : Nat) : Bool := decide (bitrev6 t < min 64 ((2 * d + 64) / 128))

/-- Round a / b to the nearest integer for signed a, a tie upwards, held to 4,095; negative where a is (R231). -/
def dutyOf (a b : Int) : Int := min 4095 (roundDiv a b.toNat)

/-- The effective duty of string s of colour c of petal t for a duty D (R231, R232). -/
def State.effective (s : State) (t : PetalId) (c str d : Nat) : Int :=
  if s.petals[t].ntcValid then
    dutyOf ((d : Int) * (1000000 + s.val 0x7802 (c + 1) * (s.val (0x7820 + t.val) 1 - s.val 0x7800 2))) 1000000
  else dutyOf ((d : Int) * s.val (0x7830 + t.val) (3 * c + str + 1)) 32768

/-- A duty below 0, which the 12 bits cannot hold: its value is not stated, a free value. -/
def State.dutyBits (s : State) (v : Int) : State × Nat :=
  if 0 ≤ v then (s, v.toNat) else let r := s.takeFree; (r.2, r.1 % 4096)

/-- The effective duties of the 12 strings of a petal, Duty at sub base 1, StrobeDuty at 5. -/
def State.petalDuties (s : State) (t : PetalId) (base : Nat) : State × List Nat :=
  (List.range 12).foldl (fun (acc : State × List Nat) (n : Nat) =>
    let d := s.nat (0x7810 + t.val) (base + n / 3)
    let r := acc.1.dutyBits (acc.1.effective t (n / 3) (n % 3) d)
    (r.1, acc.2 ++ [r.2])) (s, [])

/-- Effective duties are taken at a PWM cycle boundary (R230). -/
def State.updateDuties (s : State) (t : PetalId) : State :=
  let a := s.petalDuties t 1
  let b := a.1.petalDuties t 5
  b.1.modPetal t fun p => { p with duty := a.2, strobe := b.2 }

/-- A column driver that failed in the last scan of a petal, or did not: 3 consecutive fails turn the string off
(R232). -/
def State.columnCheck (s : State) (t : PetalId) (fails : List (PetalId × Fin 12)) (c : Fin 12) : State :=
  let run := if fails.contains (t, c) then s.petals[t].failRun.getD c.val 0 + 1 else 0
  let l := s.petals[t].failRun ++ List.replicate (12 - s.petals[t].failRun.length) 0
  let s := s.modPetal t fun p => { p with failRun := l.set c.val run }
  if run = 3 && !s.petals[t].stringOff.getLsbD c.val then
    (s.modPetal t fun p => { p with stringOff := p.stringOff ||| BitVec.ofNat 12 (2 ^ c.val) }).emit 0x7803 255 [t.val, c.val]
  else s

/-- SCAN_BOUNDARY: a scan starts; requested exposures begin; every 64 scans the duties are taken (R215, R229, R230,
R232). -/
def execScanBoundary (columnFails : List (PetalId × Fin 12)) (s : State) : Out :=
  if s.tick % 32000 ≠ 0 || s.scanNumber == s.tick / 32000 + 1 || !imagingRuns s.modState then .next s
  else
    let s := State.foldFin 8 s fun t s => State.foldFin 12 s fun c s => s.columnCheck t columnFails c
    let s : State := { s with scanNumber := s.tick / 32000 + 1 }
    let s := if s.tick / 32000 % 64 = 0 then State.foldFin 8 s fun t s => s.updateDuties t else s
    .next (State.foldFin 5 s fun p s =>
      let s := s.modCam p fun c => { c with scanCount := c.scanCount + 1 }
      if s.cams[p].request then
        if s.cams[p].trig then s else s.startExposure p
      else s)

/-- A string is driven at an instant: petal, column and step of the scan, by R229, R230, R233 and R234. -/
def State.stringDriven (s : State) (t : PetalId) (c : Fin 12) : Bool :=
  let at_ := s.tick % 32000
  let slot := at_ - 4000 * t.val
  let step := (slot - 160) / 60
  let inSlot := decide (4000 * t.val + 160 ≤ at_) && decide (at_ < 4000 * (t.val + 1))
  let strobing := s.cams.toList.any (·.strobe)
  let m := s.tick / 32000 % 64
  imagingRuns s.modState && inSlot && !s.petals[t].stringOff.getLsbD c.val &&
    (match s.nat 0x7800 1 with
    | 0 => false
    | mode =>
      if strobing then strobeOn (s.petals[t].strobe.getD c.val 0) step
      else mode == 1 && pwmOn (s.petals[t].duty.getD c.val 0) m step)

/-- The line switch of a petal is closed: from tick 80 of its slot to the slot's end (Table 10.3, R234). -/
def State.lineClosed (s : State) (t : PetalId) : Bool :=
  imagingRuns s.modState && decide (4000 * t.val + 80 ≤ s.tick % 32000) && decide (s.tick % 32000 < 4000 * (t.val + 1))

/-- NTC_READING: the petal temperature is the mean of the last 8; 3 readings outside −40 to +150 °C fail the NTC, 100
within restore it (R231, R232). -/
def execNtcReading (t : PetalId) (reading : Int) (s : State) : Out :=
  if !imagingRuns s.modState then .next s
  else
    let good := decide (-4000 ≤ reading) && decide (reading ≤ 15000)
    let s := s.modPetal t fun p =>
      { p with readings := (reading :: p.readings).take 8, badRun := if good then 0 else p.badRun + 1
               goodRun := if good then p.goodRun + 1 else 0 }
    let p := s.petals[t]
    let s := s.put (0x7820 + t.val) 1 (roundDiv p.readings.sum p.readings.length)
    if 3 ≤ p.badRun ∧ !p.ntcFailed then
      .next (((s.modPetal t fun p => { p with ntcValid := false, ntcFailed := true }).put (0x7820 + t.val) 2 0).emit 0x7801 255
        [t.val, reading])
    else if 100 ≤ p.goodRun ∧ !p.ntcValid then
      let u := (s.modPetal t fun p => { p with ntcValid := true, ntcFailed := false }).put (0x7820 + t.val) 2 1
      .next (if p.ntcFailed then u.emit 0x7802 255 [t.val] else u)
    else .next s

/-- DUTY_WRITE: Duty of a colour; the strings of it that were off under R232 are on again. -/
def execDutyWrite (q : Sess) (t : PetalId) (colour : Fin 4) (v : BitVec 16) (s : State) : Out :=
  .next <| s.host q (0x7810 + t.val) (colour.val + 1) v.toNat fun s =>
    if v.toNat > 4095 then refused s 0x0201
    else
      let s := s.put (0x7810 + t.val) (colour.val + 1) v.toNat
      accepted (s.modPetal t fun p =>
        { p with stringOff := p.stringOff &&& ~~~(BitVec.ofNat 12 (7 * 2 ^ (3 * colour.val)))
                 failRun := p.failRun.zipIdx.map fun (x : Nat × Nat) => if x.2 / 3 = colour.val then 0 else x.1 })

end Sys2Proof.Machine
end

