-- ==== Sys2Proof/Machine/Profiles.lean ====
section
/-!
DEFINITION. Stored profiles (R282 to R285): choice of the copy, loading, storing, and the settings that take effect
with a load.
-/
namespace Sys2Proof.Machine

/-- A network mask is contiguous (Table 12.8). -/
def contiguous (v : Nat) : Bool :=
  let w := 2 ^ 32 - 1 - v
  w &&& (w + 1) == 0

/-- A stage parameter lies in the range of Table 6.2 for the stage's opcode; LIMIT's lo ≤ hi is a range of both. -/
def State.stageParamOk (s : State) (n : LaneId) (stage sub : Nat) (v : Int) : Bool :=
  let p := fun (i : Nat) => if i = sub then v else s.val (laneIx (0x5802 + stage) n) i
  match field (s.nat (laneIx 0x5801 n) (stage + 1)) 15 12, sub with
  | 1, 2 | 3, 10 => decide (0 ≤ v) && decide (v ≤ 7)
  | 6, 1 | 6, 2 => decide (p 1 ≤ p 2)
  | 7, 1 | 7, 2 | 9, 1 => decide (0 ≤ v)
  | 10, 1 => decide (0 ≤ v) && decide (v ≤ 2)
  | _, _ => true

/-- A value is 0 to a highest one, or 255. -/
def upToOrNone (v : Int) (hi : Nat) : Bool := decide (v ≤ hi) || v == 255

/-- Values of a set that is not one interval, or that an entry of its own bounds (R52 and the entry tables). -/
def State.valueOk (s : State) (ix sub : Nat) (v : Int) : Bool :=
  match ix, sub with
  | 0x1013, 2 | 0x1014, 2 => contiguous v.toNat
  | 0x1F00, 2 => upToOrNone v 3
  | 0x5000, 5 => v % 32 == 0
  | 0x5200, 1 => v == 50 || v == 100 || v == 200
  | 0x5300, _ => upToOrNone v 11
  | 0xB000, 0x0A => decide (v ≤ s.nv.newest)
  | _, _ =>
    match within 0x5801 0x20 20 ix, within 0x5A30 0x20 3 ix, within 0x6004 0x100 4 ix, within 0x6005 0x100 4 ix with
    | some _, _, _, _ => if sub = 0x0B then upToOrNone v 7 else true
    | _, some _, _, _ => upToOrNone v 3
    | _, _, some _, _ => v.toNat &&& (v.toNat - 1) == 0
    | _, _, _, some _ => if sub = 4 then v != 0 else if sub = 7 then upToOrNone v 3 else true
    | _, _, _, _ =>
      if h : 0x5800 ≤ ix ∧ ix < 0x5A80 ∧ 2 ≤ ix % 32 ∧ ix % 32 ≤ 9 then
        s.stageParamOk ⟨(ix - 0x5800) / 32, by omega⟩ (ix % 32 - 2) sub v
      else if h : 0x2810 ≤ ix ∧ ix < 0x281C ∧ sub ≤ 2 then
        -- a field centre lies within the bed (Table 4.5)
        let half := um (s.nat 0x2800 sub) / 2
        decide (-half ≤ v) && decide (v ≤ half)
      else true

/-- Sums of coefficient phases: taps of each of 64 phases add to 16,384 (Table 10.4). -/
def phasesOk (taps : Nat) (b : Bytes) : Bool :=
  (List.range 64).all fun p => ((List.range taps).map fun i => coeff b taps p i).sum == 16384

/-- The status with which an octet entry refuses a value; 0 where it takes it (R277, R278). -/
def blobStatus (d : Entry) (ix sub : Nat) (data : Bytes) : Nat :=
  if !inRange d data.length then 0x0202
  else if ix = 0x1015 ∧ data.head? ≠ some 0xFF then 0x0201
  else if (within 0x71C0 1 8 ix).isSome ∧ !phasesOk (if sub = 1 then 8 else 4) data then 0x0203
  else if ix = 0xE010 ∧ data.length % 12 ≠ 0 then 0x0202
  else 0

/-- A key names a stored (P) entry. -/
def storedKey (k : Nat) : Bool :=
  match findEntry (k / 256) (k % 256) with | some d => d.stored | none => false

/-- The copy of a profile in force: the valid one of higher Generation, A of equal ones (R191, R282). -/
def State.profile (s : State) (n : Nat) : Option Profile :=
  match assocGet n s.nv.profileA, assocGet n s.nv.profileB with
  | some a, some b => some (if a.generation < b.generation then b else a)
  | some a, none => some a
  | none, b => b

/-- The P entries in force, as a profile holds them: the values that are not the default (R282). -/
def State.toProfile (s : State) (generation : Nat) : Profile :=
  { generation := generation, values := s.dict.filter fun x => storedKey x.1, blobs := s.blobs.filter fun x => storedKey x.1 }

/-- Every P entry at its factory default (R283). -/
def State.defaultEntries (s : State) : State :=
  { s with dict := s.dict.filter (fun x => !storedKey x.1), blobs := s.blobs.filter fun x => !storedKey x.1 }

/-- One record of an image: an unknown entry is skipped, a value that fails leaves the default and record 0x1107
(R283): range and value set; agreement with other entries, which come and go as the image is read, is not looked at
(DEDUCED, row 23). -/
def State.loadValue (s : State) (n : Nat) (x : Nat × Int) : State :=
  match findEntry (x.1 / 256) (x.1 % 256) with
  | none => s
  | some d => if inRange d x.2 && s.valueOk (x.1 / 256) (x.1 % 256) x.2 then s.put (x.1 / 256) (x.1 % 256) x.2 else s.emit 0x1107 255 [n, 0, x.1]

/-- The same for an octet string. -/
def State.loadBlob (s : State) (n : Nat) (x : Nat × Bytes) : State :=
  match findEntry (x.1 / 256) (x.1 % 256) with
  | none => s
  | some d =>
    if blobStatus d (x.1 / 256) (x.1 % 256) x.2 = 0 then s.putBlob (x.1 / 256) (x.1 % 256) x.2 else s.emit 0x1107 255 [n, 0, x.1]

/-- A lane's staged chain passes the checks of R142. -/
def State.chainOk (s : State) (n : LaneId) : Bool :=
  let c := s.stagedChain n
  (List.range 8).all (fun i => stageOpValid (s.nat (laneIx 0x5801 n) (i + 1)))
    && decide ((c.map fun g => stageMacs g.op).sum ≤ chainBudget n) && handoverValid c (s.nat (laneIx 0x5801 n) 0x0B)

/-- Loaded values that an entry of their own would put into effect: axis limits, chains, links, cameras, planes, the
output, and what waits for the next ARM (R285; DEDUCED, row 23). -/
def State.takeLoaded (s : State) : State :=
  let s := State.foldFin 4 s fun a s => s.modAxis a fun x =>
    { x with limV := s.nat (axisIx 0x6002 a) 1, limA := s.nat (axisIx 0x6002 a) 2, limJ := s.nat (axisIx 0x6002 a) 3 }
  let s := State.foldFin 20 s fun n s => if s.chainOk n then s.commitChain n else s
  let s := State.foldFin 12 s fun p s =>
    let on := s.nat (portIx 0x4008 p) 1 == 1
    if on && s.lasers[p].link == .off then s.startLink p
    else if !on && s.lasers[p].link != .off then
      (s.loseLaser p .link).modLaser p fun l => { l with link := .off, linkTimer := none, retryTimer := none, auxBusy := none }
    else s
  let s := State.foldFin 5 s fun p s => s.modCam p fun c => { c with staged := some (s.stagedCam p) }
  let g := s.nat 0x7200
  let s := { s with comp := { s.comp with width := g 1, height := g 2, hTotal := g 3, vTotal := g 4, clock := g 5 } }
  let s := State.foldFin 8 s fun k s =>
    if s.planeCheck k (s.stagedPlane k) = 0 then s.modPlane k fun x => { x with next := some (s.stagedPlane k) } else s
  { s.startFlatten with armDict := s.startFlatten.dict }

/-- Load a profile, or factory defaults, with its record (R283): cause 0 pins, 1 NextProfile, 2 switch, 3 fall-back. -/
def State.loadProfile (s : State) (n : Nat) (p : Option Profile) (cause : Nat) : State :=
  let s := s.defaultEntries
  let s : State := match p with
    | some p => p.blobs.foldl (fun s x => s.loadBlob n x) (p.values.foldl (fun s x => s.loadValue n x) s)
    | none => s
  let active := if p.isSome then n else 0xFE
  let s := { s with activeProfile := active }
  (s.takeLoaded).emit 0x1106 255 [active, ((p.map (·.generation)).getD 0 : Nat), cause]

/-- Interface addresses take effect at a restart (R261). -/
def State.takeAddresses (s : State) : State := { s with ringV4 := s.nat 0x1013 1, uplinkV4 := s.nat 0x1014 1 }

/-- The start-up load: the selected profile, else PF0, else factory defaults; false for the last (R283). -/
def State.startupLoad (s : State) : State × Bool :=
  let n := s.profileTarget
  match s.profile n with
  | some p => ((s.loadProfile n (some p) s.profileCause).takeAddresses, true)
  | none =>
    let s := s.emit 0x1107 255 [n, 2, 0]
    match s.profile 0 with
    | some p => ((s.loadProfile 0 (some p) 3).takeAddresses, true)
    | none =>
      let s := if n = 0 then s else s.emit 0x1107 255 [0, 2, 0]
      ((s.loadProfile 0 none 3).takeAddresses, false)

/-- The directory entry of a copy: its Generation and check word (R190, R282). -/
def Profile.dirEntry (n : Nat) (p : Profile) : Nat × Nat :=
  let b := p.image n
  (p.generation, leAt b (b.length - 4) 4)

/-- Put a copy of a profile and, with it, its directory entry; none is an invalid copy (R190, R192, R282). -/
def State.setProfile (s : State) (a : Bool) (n : Nat) (p : Option Profile) : State :=
  let f := fun (l : List (Nat × Profile)) => match p with | some p => assocPut n p l | none => assocDel n l
  let d := fun (l : List (Nat × Nat × Nat)) => match p with | some p => assocPut n (p.dirEntry n) l | none => assocDel n l
  if a then { s with nv := { s.nv with profileA := f s.nv.profileA, profDirA := d s.nv.profDirA } }
  else { s with nv := { s.nv with profileB := f s.nv.profileB, profDirB := d s.nv.profDirB } }

/-- A copy of a profile, where it is valid: read back correctly, and equal to its directory entry unless that entry fails
its ECC (R190, R282). -/
def State.validProfile (s : State) (a : Bool) (n : Nat) (readOk dirBad : Bool) : Option Profile :=
  if !readOk then none
  else
    (assocGet n (if a then s.nv.profileA else s.nv.profileB)).filter fun p =>
      dirBad || assocGet n (if a then s.nv.profDirA else s.nv.profDirB) == some (p.dirEntry n)

/-- The valid copies of a profile at SELFTEST. -/
def State.profileCopies (s : State) (r : SelfTest) (n : Nat) : Option Profile × Option Profile :=
  (s.validProfile true n (r.profileA.getLsbD n) (r.profDirBad.getLsbD n),
    s.validProfile false n (r.profileB.getLsbD n) (r.profDirBad.getLsbD (4 + n)))

/-- The profile that SELFTEST chooses: the valid copy of higher Generation, A of equal ones (R191, R282). -/
def State.chosenProfile (s : State) (r : SelfTest) (n : Nat) : Option Profile :=
  match s.profileCopies r n with
  | (some a, some b) => some (if a.generation < b.generation then b else a)
  | (some a, none) => some a
  | (none, b) => b

/-- Copies of the profiles that SELFTEST finds invalid go, and an invalid or older copy is written from the one in force
(R191, R282). -/
def State.repairProfiles (s : State) (r : SelfTest) : State :=
  (List.range 4).foldl (fun (s : State) n =>
    match s.profileCopies r n, s.chosenProfile r n with
    | (a, b), some p =>
      let s := if a == some p then s else s.setProfile true n (some p)
      if b == some p then s else s.setProfile false n (some p)
    | _, none => (s.setProfile true n none).setProfile false n none) s

/-- States in which a store is accepted (R284). -/
def storeAllowed : ModState → Bool
  | .ready | .armed | .paused | .service => true
  | _ => false

/-- STORE_PROFILE (R284). -/
def execStoreProfile (q : Sess) (v : Byte) (s : State) : Out :=
  .next <| s.host q 0x1F00 4 v.toNat fun s =>
    if s.modState = .building then refused s 0x0302
    else if !storeAllowed s.modState then refused s 0x0105
    else if 3 < v.toNat then refused s 0x0201
    else if s.profileBusy ≠ 0 then refused s 0x0301
    else accepted { s with profileBusy := 1, profileTarget := v.toNat, profileFailed := false }

/-- Copy A is written first: the invalid or the older one (R192, row 16). -/
def State.profileFirstIsA (s : State) (n : Nat) : Bool :=
  match assocGet n s.nv.profileA, assocGet n s.nv.profileB with
  | none, _ => true
  | some _, none => false
  | some a, some b => decide (a.generation < b.generation)

/-- PROFILE_STORED: the copies are written in turn with the next Generation (R192, R282, R284); record 0x1108 once the
first is complete. -/
def execProfileStored (programmed : List Bool) (s : State) : Out :=
  if s.profileBusy ≠ 1 then .next s
  else
    let n := s.profileTarget
    let g := ((s.profile n).map (·.generation)).getD 0 + 1
    let p := s.toProfile g
    let first := s.profileFirstIsA n
    let s := { s with profileBusy := 0 }
    match tryCopy programmed with
    | none => .next ({ s with profileFailed := true } : State)
    | some (_, false) => .next (({ s with profileFailed := true } : State).setProfile first n none)
    | some (more, true) =>
      let s := (s.setProfile first n (some p)).emit 0x1108 255 [n, g]
      match tryCopy more with
      | none => .next s
      | some (_, false) => .next (({ s with profileFailed := true } : State).setProfile (!first) n none)
      | some (_, true) => .next (s.setProfile (!first) n (some p))

/-- The refusals that a switch and LoadDefaults share (R285). -/
def State.switchRefusal (s : State) : Option Nat :=
  if s.modState ≠ .ready then some 0x0105 else if s.profileBusy ≠ 0 then some 0x0301 else none

/-- SWITCH_PROFILE: a valid profile is loaded at once (R285). -/
def execSwitchProfile (q : Sess) (v : Byte) (s : State) : Out :=
  .next <| s.host q 0x1F00 3 v.toNat fun s =>
    match s.switchRefusal with
    | some st => refused s st
    | none =>
      if 3 < v.toNat then refused s 0x0201
      else
        match s.profile v.toNat with
        | none => refused s 0x0203
        | some p => accepted (({ s with profileFailed := false } : State).loadProfile v.toNat (some p) 2).takePtp

/-- LOAD_DEFAULTS: a write of 1 loads factory defaults and stores nothing (R285). -/
def execLoadDefaults (q : Sess) (v : Byte) (s : State) : Out :=
  .next <| s.host q 0x1F00 7 v.toNat fun s =>
    match s.switchRefusal with
    | some st => refused s st
    | none =>
      if 1 < v.toNat then refused s 0x0201
      else if v = 1 then accepted (({ s with profileFailed := false } : State).loadProfile 0 none 2).takePtp
      else accepted s

/-- ProfileStatus (0x1F00.05). -/
def State.profileStatus (s : State) : Nat := s.profileBusy + 128 * b2n s.profileFailed

end Sys2Proof.Machine
end

