-- ==== Sys2Proof/Machine/Flags.lean ====
section
/-!
DEFINITION. Status and flag words of the dictionary: each gathers bits that live in typed fields of the state.
-/
namespace Sys2Proof.Machine

/-- PortStatus (Table 3.10): READY, alarm active (ALARM_L low), EMIT_EN commanded and read back, LGATE, available. -/
def State.portStatus (s : State) (p : LaserId) : Nat :=
  let l := s.lasers[p]
  ofBits [l.readyHigh, !l.alarmHigh, l.emitEn, l.emitReadback, l.lgate, l.available]

/-- LinkState (Table 3.10). -/
def LinkState.code : LinkState → Nat
  | .off => 0 | .idle => 1 | .align => 2 | .identify => 3 | .up => 4

/-- LaneStatus (Table 6.3). -/
def State.laneStatus (s : State) (n : LaneId) : Nat :=
  let l := s.lanes[n]
  ofBits [l.lost, l.slewing, l.inj.running, l.clamped != 0]

/-- PlaneStatus (Table 10.4). -/
def State.planeStatus (s : State) (k : PlaneId) : Nat :=
  let x := s.planes[k]
  ofBits [x.ready, x.stale, x.transparent, x.cfg.static]

/-- SupplyStatus (Table 17.8). -/
def State.supplyStatus (s : State) : Nat :=
  ofBits [s.supply.goodA, s.supply.goodB, s.supply.pfWarn, s.supply.charged]

/-- ClockStatus (Table 1.7). -/
def State.clockStatus (s : State) : Nat := ofBits [s.supply.pllLocked, s.supply.refPresent, s.supply.trimLimit]

/-- SpareState (Table 8.6). -/
def State.spareStatus (s : State) : Nat :=
  match s.engines[12].st with
  | .standin => if s.spare.forTrim then 2 else 1
  | .trim => 3
  | .fault => 4
  | _ => 0

/-- RecordStatus and the states of calibration: CalState is 4 while records are committed (Table 9.6). -/
def State.calState (s : State) : Nat := if s.cal.committing.isEmpty then s.cal.state else 4

/-- InflaterStatus (Table 15.4). -/
def State.inflaterStatus (s : State) : Nat := ofBits (s.inflaters.toList.map (·.inService))

/-- AxisState (Table 11.1). -/
def AxisState.code : AxisState → Nat
  | .disabled => 0 | .enabling => 1 | .standstill => 2 | .moving => 3 | .homing => 4 | .stopping => 5 | .fault => 6
  | .slaved => 7

/-- Claims of which any part is held, and claims that wait (R94, Table 4.5). -/
def State.activeClaims (s : State) : Nat :=
  (s.claims.filter fun (c : Claim) => c.granted && (c.spacingHeld s.tick || c.keepHeld s.tick s.persist)).length
def State.waitingClaims (s : State) : Nat := (s.claims.filter fun (c : Claim) => !c.granted && c.waiting).length

/-- RateAdjust in ppb: the adjustment is in 2^−32 ns per 5 ns cycle (R288). -/
def State.rateAdjust (s : State) : Int := roundDiv (s.time.adj * 200000000) nsUnit

/-- ThrottleTime with the present throttling (Table 17.8). -/
def State.throttleTime (s : State) : Nat :=
  s.nat 0x9011 5 + (if 2 ≤ s.supply.level then (s.tick - s.supply.throttleSince.getD s.tick) / 80000 else 0)

/-- ScrubProgress: lines of both channels passed, in millionths of a pass (Table 14.5). -/
def State.scrubProgress (s : State) : Nat :=
  (s.dram[0].scrubLine + s.dram[1].scrubLine) * 1000000 / (2 * channelLines)

/-- Throughput in MB/s (Table 14.5). -/
def State.throughput (s : State) : Nat := (s.dram[0].bytesLast + s.dram[1].bytesLast) / 1000000

/-- MappedPages: valid level-3 entries below an address space's level-1 table (R163, Table 7.9). -/
def State.mappedCount (s : State) (a : SpaceId) : Nat :=
  let leaves := fun (base : Nat) => ((List.range 4096).filter fun i => entryCause 3 (tableEntry s.mem base i) == 0).length
  let middle := fun (base : Nat) => ((List.range 4096).map fun i =>
    let e := tableEntry s.mem base i
    if entryCause 2 e = 0 then leaves (entryAddress e) else 0).sum
  ((List.range 256).map fun i =>
    let e := tableEntry s.mem s.tableBase[a] i
    if entryCause 1 e = 0 then middle (entryAddress e) else 0).sum

end Sys2Proof.Machine
end

