-- ==== Sys2Proof/Machine/Live.lean ====
section
/-!
DEFINITION. What an entry reads as (R268, R270): numeric entries whose value lives in a typed field of the state, octet
entries that are composed when read, and the reads that a rule refuses.
-/
namespace Sys2Proof.Machine

/-- 1 or 0 as an entry shows it. -/
abbrev shown (b : Bool) : Option Int := some (b2n b : Nat)

/-- A natural number held within an unsigned entry of some octets. -/
abbrev capped (n octets : Nat) : Option Int := some (min n (256 ^ octets - 1) : Nat)

/-- Entries of 0x1xxx (Table 12.8). -/
def State.liveComm (s : State) (ix sub : Nat) : Option Int :=
  match ix, sub with
  | 0x1000, 3 => capped Config.hardwareRevision 2
  | 0x1000, 4 => capped Config.firmwareVersion 4
  | 0x1000, 5 => capped Config.identity 8
  | 0x1011, 3 => some s.runningMinor
  | 0x1011, 4 => some s.minorSetBy
  | 0x1016, 1 => some s.ringUp.toNat
  | 0x1017, 1 => some s.openSessions
  | 0x1017, 3 => shown s.duplicateAt.isSome
  | 0x1F00, 1 => some s.activeProfile
  | 0x1F00, 2 => some s.nv.nextProfile
  | 0x1F00, 5 => some s.profileStatus
  | 0x1F00, 6 => some s.pinSelection
  | 0x1F80, 2 => some dictionaryDescription.length
  | _, 1 => (within 0x1F10 1 4 ix).map fun n => (b2n (s.profile n.val).isSome : Nat)
  | _, 2 => (within 0x1F10 1 4 ix).map fun n => (((s.profile n.val).map (·.generation)).getD 0 : Nat)
  | _, _ => none

/-- Entries of 0x2xxx (Tables 1.7, 3.10, 4.5, 13.4 and 17.8). -/
def State.liveBuild (s : State) (ix sub : Nat) : Option Int :=
  match ix, sub with
  | 0x2000, 1 => some s.modState.code
  | 0x2000, 2 => some s.prevState.code
  | 0x2000, 3 => some s.cause
  | 0x2000, 4 => some s.entryTick
  | 0x2001, 2 => some s.commandStatus
  | 0x2002, 1 => shown s.safetyOk
  | 0x2804, 1 => capped s.activeClaims 1
  | 0x2804, 2 => capped s.waitingClaims 1
  | 0x2004, 1 => shown s.resumeArm
  | 0x2004, 2 => shown s.resumeAvailable
  | 0x2004, 3 => some ((s.nv.resume.map (·.layer)).getD 0)
  | 0x2004, 4 => some ((s.nv.resume.map (·.cause)).getD 0)
  | 0x2808, n => (s.tokens[n - 1]?).map (·.count)
  | 0x2809, n => (s.tokens[n - 1]?).map fun t => t.mailbox.length
  | _, _ => none

/-- Entries of an engine (Tables 1.7, 3.10 and 8.6). -/
def State.liveEngine (s : State) (e : EngineId) (ix sub : Nat) : Option Int :=
  let g := s.engines[e]
  match ix % 256, sub with
  | 0x00, 1 => some g.st.code
  | 0x00, 2 => some g.cause
  | 0x00, 3 => some ((g.routed.map (fun (p : LaserId) => p.val)).getD 255)
  | 0x00, 4 => some (bedUnit g.setX)
  | 0x00, 5 => some (bedUnit g.setY)
  | 0x02, 1 => capped (s.bufferedTime e) 4
  | 0x06, 1 => some g.selfCheck
  | 0x06, 3 => capped g.dupDeviation 2
  | 0x06, 4 => some g.faultTick
  | _, _ => none

/-- Entries of the contexts and address spaces (Table 7.9), and of the spare channel (Table 8.6). -/
def State.liveContexts (s : State) (ix sub : Nat) : Option Int :=
  let ctx := (within 0x3E00 1 512 ix).map fun n => (assocGet n.val s.contexts).getD {}
  match ix, sub with
  | 0x3C10, 1 => some s.spareStatus
  | 0x3C10, 2 => some ((s.spare.standinFor.map (fun (e : EngineId) => e.val)).getD 255)
  | 0x3C10, 9 => some s.spare.subState.code
  | 0x3D00, 1 => some ((512 - (s.contexts.filter fun c => c.2.st != .free).length : Nat))
  | 0x3D00, 2 => some (freeSlots s.contexts)
  | 0x3D01, 2 => some (min 64 s.faults.length)
  | _, 1 =>
    match within 0x3D40 1 64 ix with
    | some a => some s.tableBase[a]
    | none => ctx.map fun c => ctxCode c.st
  | _, 2 =>
    match within 0x3D40 1 64 ix with
    | some a => some s.spillBase[a]
    | none => ctx.map fun c => c.priority
  | _, 3 =>
    match within 0x3D40 1 64 ix with
    | some a => some (s.mappedCount a)
    | none => ctx.map fun c => c.space
  | _, 4 => ctx.map fun c => c.engine
  | _, _ => none

/-- Entries of 0x3xxx. -/
def State.liveEngines (s : State) (ix sub : Nat) : Option Int :=
  if h : 0x3000 ≤ ix ∧ ix < 0x3D00 ∧ ix ≠ 0x3C10 then
    s.liveEngine ⟨(ix - 0x3000) / 256, by omega⟩ ix sub
  else s.liveContexts ix sub

/-- Entries of the laser ports (Table 3.10). -/
def State.livePorts (s : State) (ix sub : Nat) : Option Int :=
  if h : 0x4000 ≤ ix ∧ ix < 0x4C00 then
    let p : LaserId := ⟨(ix - 0x4000) / 256, by omega⟩
    match ix % 256, sub with
    | 0x01, 1 => some (s.portStatus p)
    | 0x09, 1 => some s.lasers[p].link.code
    | _, _ => none
  else none

/-- Entries of 0x5xxx (Tables 5.6 and 6.3). -/
def State.liveMelt (s : State) (ix sub : Nat) : Option Int :=
  match ix, sub with
  | 0x5201, 1 => some s.ledger.cols
  | 0x5201, 2 => some s.ledger.rows
  | 0x5201, 3 => some (s.ledger.cols * s.ledger.rows * 4 : Nat)
  | 0x5F00, 8 => shown (s.capture.state == 1 || s.capture.state == 2)
  | 0x5F00, 9 => some s.capture.state
  | _, _ =>
    match within 0x5800 0x20 20 ix, sub with
    | some n, 1 => some s.lanes[n].effective.code
    | some n, 2 => some s.lanes[n].programmed.code
    | some n, 3 => some (s.laneStatus n)
    | some n, 4 => some s.lanes[n].c
    | _, _ =>
      match within 0x580C 0x20 20 ix, sub with
      | some n, 0x0C => shown s.lanes[n].inj.running
      | _, _ => none

/-- Entries of 0x6xxx (Table 11.5). -/
def State.liveAxes (s : State) (ix sub : Nat) : Option Int :=
  match within 0x6000 0x100 4 ix, within 0x6006 0x100 4 ix with
  | some a, _ =>
    let x := s.axes[a]
    match sub with
    | 1 => some x.st.code
    | 2 => some (s.axisFlags a)
    | 3 => some (bedUnit x.pos)
    | 4 => some x.actual
    | 5 => some (clampInt (bedUnit x.vel) (-(2 ^ 31)) (2 ^ 31 - 1))
    | 6 => some (clampInt x.followError (-(2 ^ 31)) (2 ^ 31 - 1))
    | 8 => some s.nv.powerLossPos[a]
    | _ => none
  | none, some a =>
    let x := s.axes[a]
    match sub with
    | 1 => some (unsigned 32 x.encCount)
    | 2 => some (signed 32 (unsigned 32 x.encRev))
    | 3 => some (s.encPosition a)
    | 4 => some (clampInt x.speed (-(2 ^ 31)) (2 ^ 31 - 1))
    | _ => none
  | none, none => none

/-- Entries of 0x7xxx (Table 10.4). -/
def State.liveImaging (s : State) (ix sub : Nat) : Option Int :=
  match within 0x7000 1 5 ix, sub with
  | some p, 0x15 => capped (Config.ringBase p.val) 8
  | _, _ =>
    match within 0x7100 1 8 ix, sub with
    | some k, 0x14 => some (s.planeStatus k)
    | _, _ =>
      match within 0x7820 1 8 ix, sub with
      | some t, 3 => some s.petals[t].stringOff.toNat
      | _, _ => none

/-- Entries of 0x8xxx (Table 13.4). -/
def State.liveTime (s : State) (ix sub : Nat) : Option Int :=
  match ix, sub with
  | 0x8000, 1 => some s.time.status
  | 0x8000, 4 => some (clampInt s.time.offset (-(2 ^ 31)) (2 ^ 31 - 1))
  | 0x8000, 5 => capped s.time.pathDelay 4
  | 0x8000, 6 => some s.rateAdjust
  | 0x8000, 0x0C => some (signed 16 (unsigned 16 s.time.utcOffset))
  | 0x8000, 0x0E => some (clampInt s.time.rho (-(2 ^ 31)) (2 ^ 31 - 1))
  | 0x8001, 7 => capped s.time.grandmaster 8
  | 0x8001, 8 => capped s.time.stepsRemoved 2
  | _, 4 => (within 0x8010 1 3 ix).map fun p => s.time.ports[p].state
  | _, 0x0C => (within 0x8010 1 3 ix).bind fun p => capped s.time.ports[p].meanLinkDelay 4
  | _, _ => none

/-- Entries of 0x9xxx (Tables 17.8 and 19.12); InputPower, which no command tells, is a free value (row 3). -/
def State.liveSupply (s : State) (ix sub : Nat) : Option Int :=
  match ix, sub with
  | 0x9000, 1 => capped s.supply.mvA 2
  | 0x9000, 2 => capped s.supply.mvB 2
  | 0x9000, 3 => capped s.supply.bankMv 2
  | 0x9000, 4 => some (Config.freeNat s.free % 2 ^ 32 : Nat)
  | 0x9000, 5 => some s.supplyStatus
  | 0x9000, 7 => capped s.nv.holdupCount 4
  | 0x9000, 8 => capped s.nv.lastHoldupWindow 4
  | 0x9010, n => some (s.supply.temps.getD (n - 1) 0)
  | 0x9011, 1 => some s.supply.excluded.toNat
  | 0x9011, 2 => some s.supply.maxJunction
  | 0x9011, 3 => some s.supply.level
  | 0x9011, 4 => capped s.supply.roundPeriod 2
  | 0x9011, 5 => capped s.throttleTime 4
  | 0x9011, 6 => capped s.nv.thermalOffCount 4
  | 0x9020, 1 => some s.supply.resetCause
  | 0x9020, 2 => capped s.nv.vbatMv 2
  | 0x9020, 3 => shown s.nv.vbatLow
  | 0x9030, 1 => capped s.supply.vioMv 2
  | 0x9030, 2 => some s.overload.toNat
  | 0x9030, 3 => shown s.supply.vioGood
  | _, _ => none

/-- Entries of 0xAxxx (Table 18.7). -/
def State.liveSecurity (s : State) (ix sub : Nat) : Option Int :=
  match ix, sub with
  | 0xA000, 1 => shown s.nv.certifiedMode
  | 0xA000, 2 => shown s.sec.conformant
  | 0xA000, 3 => some s.sec.unmet
  | 0xA001, 1 => shown s.nv.pskEnable
  | 0xA001, 2 => shown s.nv.commissioning
  | 0xA001, 4 => shown s.nv.domainKey.isSome
  | 0xA001, 5 => some s.nv.vendorWindowEnd
  | 0xA010, 2 => some s.pkg.status
  | 0xA010, 3 => some s.pkg.state
  | 0xA020, 1 => some s.nv.tamperEnable.toNat
  | 0xA020, 2 => some s.tamperStatus
  | 0xA030, 2 => some s.sec.firmwareStatus
  | 0xA030, 4 => some (if s.recovery then 0xFE else s.nv.activeSlot)
  | 0xA030, 5 => capped s.nv.rollbackFloor 4
  | _, _ =>
    match within 0xA100 1 32 ix, sub with
    | some n, 2 => some s.nv.accounts[n].role
    | some n, 5 => shown s.nv.accounts[n].enabled
    | some n, 6 => some s.nv.accounts[n].expiresAt
    | _, _ => none

/-- Entries of 0xBxxx; the snapshot is the session's own (Table 16.6, R338). -/
def State.liveRecorder (s : State) (q : Sess) (ix sub : Nat) : Option Int :=
  let x := ((s.sessions[q]).map (·.snap)).getD {}
  match ix, sub with
  | 0xB000, 1 => some s.nv.newest
  | 0xB000, 2 => some s.nv.oldest
  | 0xB000, 3 => capped s.nv.blocksInService 2
  | 0xB000, 4 => some (recordsSize s.nv.staging)
  | 0xB000, 5 => capped s.nv.operatingHours 4
  | 0xB000, 6 => capped s.nv.powerCycles 4
  | 0xB000, 0x0A => some s.nv.auditAck
  | 0xB000, 0x0B => capped s.nv.auditLost 4
  | 0xB010, 1 => some x.fromSeq
  | 0xB010, 2 => some x.toSeq
  | 0xB010, 3 => some x.areaMask
  | 0xB010, 5 => some x.status
  | 0xB010, 7 => some x.first
  | 0xB010, 8 => some x.last
  | _, _ => none

/-- Entries of 0xCxxx to 0xExxx (Tables 7.9, 9.6, 14.5 and 15.4). -/
def State.liveMemory (s : State) (ix sub : Nat) : Option Int :=
  match ix, sub with
  | 0xC000, 2 => some s.nv.mapOrder
  | 0xC000, 8 => some s.scrubProgress
  | 0xC000, 9 => some s.throughput
  | 0xD000, 2 => capped s.jobs.length 1
  | 0xD002, 1 => some s.inflaterStatus
  | 0xE000, 2 => some s.calState
  | 0xE000, 3 =>
    match s.cal.state with
    | 0 => some 0
    | 3 => some 1000
    | _ => some (Config.freeNat s.free % 1001 : Nat)
  | 0xE000, 4 => some s.cal.result
  | 0xE010, 2 => some ((s.blobVal 0xE010 1).length / 12 : Nat)
  | _, _ =>
    match within 0xC010 1 2 ix, sub with
    | some c, 1 => some s.dram[c].trained
    | some c, 4 => capped s.dram[c].interval 2
    | some c, 5 => some s.dram[c].temp
    | _, _ =>
      match within 0xE030 1 13 ix, sub with
      | some r, 1 => some (s.recordStatus r.val)
      | some r, 2 => some (((s.recordOf r.val).map (·.generation)).getD 0)
      | _, _ => none

/-- The value of a numeric entry that lives in a typed field; none where `dict` holds it. -/
def State.live (s : State) (q : Sess) (ix sub : Nat) : Option Int :=
  match ix / 0x1000 with
  | 0x1 => s.liveComm ix sub
  | 0x2 => s.liveBuild ix sub
  | 0x3 => s.liveEngines ix sub
  | 0x4 => s.livePorts ix sub
  | 0x5 => s.liveMelt ix sub
  | 0x6 => s.liveAxes ix sub
  | 0x7 => s.liveImaging ix sub
  | 0x8 => s.liveTime ix sub
  | 0x9 => s.liveSupply ix sub
  | 0xA => s.liveSecurity ix sub
  | 0xB => s.liveRecorder q ix sub
  | 0xC | 0xD | 0xE => s.liveMemory ix sub
  | 0xF =>
    match ix, sub with
    | 0xF020, 1 => some s.clockStatus
    | 0xF020, 2 => some s.supply.oscTrim
    | _, _ => none
  | _ => none

/-- Every numeric entry as it reads now. -/
def State.entryNow (s : State) (q : Sess) (ix sub : Nat) : Int := (s.live q ix sub).getD (s.val ix sub)

/-- LatchRecord: EncPosition, device time of the boundary, Speed, flags; 28 bytes (R253). -/
def latchRecord (l : List Int) : Bytes :=
  leInt 8 (l.getD 0 0) ++ leInt 8 (l.getD 1 0) ++ leInt 4 (l.getD 2 0) ++ leInt 4 (l.getD 3 0) ++ leInt 4 (l.getD 4 0)

/-- TickAnchor: the tick × 8, Seconds, Nanoseconds (R291); zeros before the first anchor. -/
def anchorBytes (a : Anchor) : Bytes := leBytes 8 a.tick8 ++ leBytes 8 a.seconds ++ leBytes 4 a.nanos

/-- The octets of a text held to a length, padded with zeros. -/
def fixedText (n : Nat) (b : Bytes) : Bytes := (b ++ List.replicate n 0).take n

/-- Octet entries that are composed when they are read; none where `blobs` holds them. -/
def State.liveBlob (s : State) (q : Sess) (ix sub : Nat) : Option Bytes :=
  match ix, sub with
  | 0x1000, 1 => some (textBytes (if Config.extendedGrade then "Q1213-X0" else "Q1213-M0"))
  | 0x1000, 2 => some (fixedText 12 Config.serialNumber)
  | 0x1F80, 1 => some dictionaryDescription
  | 0x3D01, 4 => some ((s.lastFault.map FaultRec.bytes).getD (List.replicate 32 0))
  | 0x5F00, 0x0A => some (s.capture.data.flatMap fun v => leInt 2 v)
  | 0x8000, 2 => some (timeBytes s.time.now)
  | 0x8000, 0x0D => some (anchorBytes (s.time.anchor.getD {}))
  | 0xA002, 1 => some (Config.certRequest (s.nv.operationalKey.getD []))
  | 0xA002, 2 => some s.nv.operationalCert
  | 0xA002, 3 => some (fixedText 97 (Config.publicPoint (s.nv.packageKey.getD [])))
  | 0xA002, 4 => some Config.factoryCert
  | 0xA003, n => s.nv.trustedCa[n - 1]?
  | 0xA004, n => s.nv.signerKeys[n - 1]?
  | 0xA010, 4 => some s.digest
  | 0xB010, 6 => (s.sessions[q]).map fun x => s.snapData x.snap
  | _, 1 => (within 0xA100 1 32 ix).map fun n => s.nv.accounts[n].name
  | _, 3 =>
    match within 0xA100 1 32 ix, within 0xE030 1 13 ix, within 0x1F10 1 4 ix with
    | some n, _, _ => some s.nv.accounts[n].fingerprint
    | _, some r, _ => some (((s.recordOf r.val).map (calBytes r.val)).getD [])
    | _, _, some n => some (((s.profile n.val).map (Profile.image n.val)).getD [])
    | _, _, _ => none
  | _, 5 => (within 0x3E00 1 512 ix).map fun n => descriptorBytes (s.descriptor n.val)
  | _, 7 => (within 0x6006 0x100 4 ix).map fun a => latchRecord s.axes[a].latch
  | _, _ => none

/-- The octets that an entry reads as, at one instant (R268). -/
def State.entryBytes (s : State) (q : Sess) (ix sub : Nat) (d : Entry) : Bytes :=
  match d.ty with
  | .str | .dom => (s.liveBlob q ix sub).getD (s.blobVal ix sub)
  | t => encodeValue t (s.entryNow q ix sub)

/-- A read that a rule of the entry refuses: CapData while a capture runs (R151), SnapData without an open snapshot
(Table 16.6). -/
def State.readRefusal (s : State) (q : Sess) (ix sub : Nat) : Option Nat :=
  match ix, sub with
  | 0x5F00, 0x0A => if s.capture.state = 1 ∨ s.capture.state = 2 then some 0x0301 else none
  | 0xB010, 6 => if (s.sessions[q]).any (·.snap.isOpen) then none else some 0x0303
  | _, _ => none

/-- The read takes a value that nothing in the model tells. -/
def freeRead (s : State) (ix sub : Nat) : Bool :=
  (ix == 0x9000 && sub == 4) || (ix == 0xB010 && sub == 6) || (ix == 0xE000 && sub == 3 && s.cal.state != 0 && s.cal.state != 3)

end Sys2Proof.Machine
end

