-- ==== Sys2Proof/Machine/Startup.lean ====
section
/-!
DEFINITION. Start-up (R25, R191, R283, R305, R306, R336, R349, R357, R369, R370): from OFF to READY or SAFE.
-/
namespace Sys2Proof.Machine

/-- The Cowslip domain has lost its contents: the key store, the tamper settings and the cause of the last end (R349). -/
def State.cowslipLost (s : State) (mv : Nat) : State :=
  ({ s with nv := { s.nv with
      vbatLow := true, endCause := 1, tamperEnable := 0, tamperLatched := false, storeKey := none
      operationalKey := none, packageKey := none, domainKey := none
      accounts := s.nv.accounts.map fun a => { a with psk := [] } } } : State).emit 0x9108 255 [mv]

/-- POWER_ON: an input rises above 20.4 V: OFF to RESET; ResetCause comes from the Cowslip domain (R349, R356, R357). -/
def execPowerOn (mvA mvB vbatMv : Nat) (s : State) : Out :=
  if s.modState ≠ .off ∨ max mvA mvB ≤ 20400 then .next s
  else
    let s := s.inputs mvA mvB
    let s := { s with nv := { s.nv with vbatMv := vbatMv, vbatLow := false, powerCycles := s.nv.powerCycles + 1 } }
    let s := if vbatMv < 2000 then s.cowslipLost vbatMv else s
    let code := if s.nv.endCause = 2 ∨ s.nv.endCause = 9 then s.nv.endCause else 1
    let s := { s with supply := { s.supply with
      goodA := decide (20400 < mvA), goodB := decide (20400 < mvB), resetCause := code, railsOff := false
      refPresent := true, pllLocked := false } }
    .next (({ s with prevState := .off, modState := .reset, cause := 0, entryTick := s.tick } : State).emit 0x2101 255
      [0x00, 0x01, 0])

/-- RESET_RELEASE: the bank charged, RESET_L high and the PLL locked: BOOT; the profile is selected (R283, R357). -/
def execResetRelease (bankMv : Nat) (resetLHigh : Bool) (profSel : BitVec 2) (s : State) : Out :=
  if s.modState ≠ .reset then .next s
  else
    let s := { s with supply := { s.supply with bankMv := bankMv, charged := decide (36000 ≤ bankMv) } }
    if bankMv < 36000 ∨ resetLHigh = false ∨ s.supply.pllLocked = false ∨ s.supply.inputsCut = true then .next s
    else
      let next := s.nv.nextProfile
      let s := { s with
        pinSelection := profSel.toNat
        profileTarget := if next < 4 then next else profSel.toNat
        profileCause := if next < 4 then 1 else 0
        nv := { s.nv with nextProfile := 0xFF } }
      .next (s.goto .boot 0x0000)

/-- The boot ROM accepts an image (R369). -/
def State.accepts (s : State) (i : FwImage) : Bool := i.keyOk && i.sigOk && decide (s.nv.rollbackFloor ≤ i.securityVersion)

/-- A trial that began at an earlier start without reaching READY is over: record 0xA10C (R370). A trial begins at the
RESTART command's start. -/
def State.trialBoot (s : State) : State :=
  match s.nv.trialSlot with
  | none => s
  | some t =>
    if s.nv.trialStarted then
      ({ s with nv := { s.nv with trialSlot := none, trialStarted := false } } : State).emit 0xA10C 255
        (auditNone ++ [(t : Int), 1])
    else if s.supply.resetCause = 7 then { s with nv := { s.nv with trialStarted := true } }
    else s

/-- The slot that the ROM boots: the active one, or the one on trial, then the other (R369, R370). -/
def State.bootSlot (s : State) : Option Nat :=
  let first := if s.nv.trialStarted then (s.nv.trialSlot).getD s.nv.activeSlot else s.nv.activeSlot
  [first, 1 - first].find? fun n => (s.nv.slots[n]?).any s.accepts

/-- The value of an entry in the profile that will be loaded, for what takes effect at a restart (R307, R337). -/
def State.restartValue (s : State) (index sub : Nat) : Nat :=
  let p := match s.profile s.profileTarget with | some p => some p | none => s.profile 0
  match p.bind fun p => assocGet (entryKey index sub) p.values with
  | some v => v.toNat
  | none => (defaultOf (entryKey index sub)).toNat

/-- A channel is trained, then every line is filled with zeros (R305, R306, R312). -/
def State.trainChannel (s : State) (ok : Bool) (read write : Nat) (c : ChanId) : State :=
  let pass := ok && decide (150 ≤ read) && decide (150 ≤ write)
  let s := s.modDram c fun _ =>
    { trained := if pass then 1 else 2, marked := s.nv.marked[c], lastRefresh := s.tick, zqAt := s.tick }
  let mark := match s.nv.marked[c] with | some d => d.val | none => 0xFF
  let s := ((s.put (0xC010 + c.val) 2 read).put (0xC010 + c.val) 3 write).put (0xC010 + c.val) 8 mark
  if pass then s else s.emit 0xC101 255 [c.val, 2, read, write, 2]

/-- BOOT: working memory is trained and filled, in the map order of the profile (R305 to R307). -/
def State.trainMemory (s : State) (trained : BitVec 2) (margins : List Nat) : State :=
  let m := margins.getD
  let s := { s with
    mem := [], poisoned := []
    nv := { s.nv with mapOrder := s.restartValue 0xC000 1, mirrorSize := s.restartValue 0xB000 8 } }
  (s.trainChannel (trained.getLsbD 0) (m 0 0) (m 1 0) 0).trainChannel (trained.getLsbD 1) (m 2 0) (m 3 0) 1

/-- The recorder's work of BOOT: staged records to flash, then the restart anchor, before any new record (R336). -/
def State.recorderBoot (s : State) : State :=
  let s := s.recoverStaging
  s.stage { type := 0xB001, source := 255, body := [8 * (s.tick : Int), 0, 0, 0, 2, s.nv.operatingHours, s.nv.powerCycles] }

/-- BOOT_AUTHENTICATED: an image is accepted and SELFTEST begins, the recovery image enters SAFE, or the module stays in
BOOT (R369). A tamper recognised without main power is recorded (R372). -/
def execBootAuthenticated (slots : List FwImage) (recoveryOk : Bool) (trained : BitVec 2) (margins : List Nat) (s : State) :
    Out :=
  if s.modState ≠ .boot then .next s
  else
    let s := ({ s with nv := { s.nv with slots := slots } } : State).trialBoot
    let begun := fun (s : State) =>
      let s := (s.trainMemory trained margins).recorderBoot
      if s.nv.tamperUnrecorded then
        ({ s with nv := { s.nv with tamperUnrecorded := false } } : State).tamperRecord s.nv.tamperEnable.toNat false
      else s
    match s.bootSlot with
    | some n => .next ((begun { s with sec := { s.sec with slot := n } }).goto .selftest 0x0000)
    | none =>
      if recoveryOk then .next (({ begun s with recovery := true } : State).enterSafe 0x0501 .recovery) else .next s

/-- A calibration index at SELFTEST: the valid copy of higher Generation, A of equal ones, and the repair of the other
(R191). -/
def State.chooseRecord (s : State) (i : Nat) (readA readB : Bool) (dirBad : BitVec 26) : State :=
  let a := s.validCopy true i readA (dirBad.getLsbD i)
  let b := s.validCopy false i readB (dirBad.getLsbD (13 + i))
  let put := fun (c : CalRec) (repairA repairB : Bool) =>
    let s := s.setRecord i (some c)
    let s := if repairA then (s.setCopy true i (some c)).emit 0xE104 255 [i, 0, c.generation] else s
    if repairB then (s.setCopy false i (some c)).emit 0xE104 255 [i, 1, c.generation] else s
  match a, b with
  | some x, some y =>
    if x.generation < y.generation then put y true false
    else put x false (decide (y.generation < x.generation))
  | some x, none => put x false true
  | none, some y => put y true false
  | none, none =>
    (((s.setCopy true i none).setCopy false i none).setRecord i none).emit 0xE105 255 [i, 2, 1]

/-- Calibration records at SELFTEST; false where the module record and its factory copy are both invalid (R191). -/
def State.chooseRecords (s : State) (r : SelfTest) : State × Bool :=
  let s := (List.range 12).foldl (fun (s : State) i => s.chooseRecord i (r.headA.getLsbD i) (r.headB.getLsbD i) r.dirBad) s
  let s := s.chooseRecord 12 r.moduleA r.moduleB r.dirBad
  if (s.recordOf 12).isSome then (s, true)
  else if r.moduleFactory then (s.setRecord 12 (some { s.nv.factory with generation := 0, factory := true }), true)
  else (s, false)

/-- The self-tests that failed: 1 gate-off path, 2 cryptographic functions, 3 entropy, 4 working memory, 5 module
record (R185, R191, R305, R371). -/
def State.failedTests (s : State) (r : SelfTest) (moduleOk : Bool) : List Nat :=
  (if r.gateOffOk then [] else [1]) ++ (if r.cryptoOk && !s.sec.cryptoFailed then [] else [2])
    ++ (if r.entropyOk then [] else [3])
    ++ (if s.dram[0].trained = 1 && s.dram[1].trained = 1 then [] else [4]) ++ (if moduleOk then [] else [5])

/-- SELFTEST_DONE: keys, profile, calibration and resume record, then READY or SAFE (R283, R305, R348, R357, R371,
R372). -/
def execSelftestDone (r : SelfTest) (s : State) : Out :=
  if s.modState ≠ .selftest then .next s
  else
    let s := if r.cryptoOk && !s.sec.cryptoFailed then s.generateKeys else s
    let s := if r.cryptoOk && r.entropyOk then s
      else ({ s with sec := { s.sec with cryptoFailed := true } } : State).emit 0xA10B 255 (auditNone ++ [if r.cryptoOk then 1 else 0, 1])
    let c := s.chooseRecords r
    let l := (c.1.repairProfiles r).startupLoad
    let s : State := { l.1 with resumeAvailable := l.1.nv.resume.isSome }
    let s := s.put 0x9020 4 (min r.readyMs 65535)
    let fails := s.failedTests r c.2
    let s := fails.foldl (fun (s : State) (n : Nat) => s.emit 0xF102 255 [(n : Int), 0]) s
    let result := if fails.isEmpty && l.2 then 0 else 0x0605
    let s := s.emit 0xF101 255 [s.supply.resetCause, r.readyMs, s.activeProfile, result]
    let s := if fails.isEmpty then s else s.enterSafe 0x0605 .selftest
    let s := if l.2 then s else s.enterSafe 0x0605 .noProfile
    let s := if s.nv.tamperPending then s.tamperSafe else s
    .next ((if s.modState = .selftest then s.goto .ready 0x0000 else s).recert)

end Sys2Proof.Machine
end

