-- ==== Sys2Proof/Machine/Writes.lean ====
section
/-!
DEFINITION. Writes of whole values (R278, R361): entries whose write is a command of its own go to that command; every
other entry is checked for length, range and consistency and then takes the value.
-/
namespace Sys2Proof.Machine

/-- The next state of a meaning; the state itself where the meaning stops. -/
def nextOr (s : State) : Out → State
  | .next t => t
  | .fault _ | .refused _ => s

/-- A fixed-size value of the wrong length is refused (R277), after the access checks. -/
def State.sized (s : State) (q : Sess) (ix sub n : Nat) (data : Bytes) (k : Out) : State :=
  if data.length = n then nextOr s k else s.host q ix sub (leNat data) (refused · 0x0202)

/-- Commands of 0x1xxx, 0x2xxx and 0x8xxx. -/
def State.commandBuild (s : State) (q : Sess) (ix sub : Nat) (data : Bytes) : Option State :=
  let v := leNat data
  let b : Byte := BitVec.ofNat 8 v
  match ix, sub with
  | 0x1F00, 3 => some (s.sized q ix sub 1 data (execSwitchProfile q b s))
  | 0x1F00, 4 => some (s.sized q ix sub 1 data (execStoreProfile q b s))
  | 0x1F00, 7 => some (s.sized q ix sub 1 data (execLoadDefaults q b s))
  | 0x2001, 1 => some (s.sized q ix sub 1 data (match v with
      | 1 => execArm q s
      | 2 => execDisarm q s
      | 3 => execStart q s
      | 4 => execPause q s
      | 5 => execResume q s
      | 6 => execAbort q s
      | 7 => execClearSafe q s
      | 8 => execEnterService q s
      | 9 => execLeaveService q s
      | 10 => execRestart q s
      | n => .next (s.command q n (refused · 0x0201))))
  | 0x2003, 1 => some (nextOr s (execScheduledStartWrite q data s))
  | 0x2003, 4 => some (nextOr s (execLayerStartAtWrite q data s))
  | 0x2004, 1 => some (s.sized q ix sub 1 data (execResumeArm q b s))
  | 0x2004, 5 => some (s.sized q ix sub 1 data (execResumeDiscard q b s))
  | 0x8000, 3 => some (nextOr s (execSetTime q data s))
  | _, _ => none

/-- Commands of 0x3xxx, 0x4xxx and 0x5xxx. -/
def State.commandEngines (s : State) (q : Sess) (ix sub : Nat) (data : Bytes) : Option State :=
  let v := leNat data
  let b : Byte := BitVec.ofNat 8 v
  match ix, sub with
  | 0x3C10, 5 => some (s.sized q ix sub 1 data (if v = 255 then execTrimWithdraw q b s else execTrimRequest q b s))
  | 0x3D10, 1 => some (nextOr s (execDmaSubmit q data s))
  | 0x5F00, 8 => some (s.sized q ix sub 1 data (execCapStart q b s))
  | _, 1 =>
    match within 0x4008 0x100 12 ix, within 0x400A 0x100 12 ix, within 0x5A2F 0x20 3 ix with
    | some p, _, _ => some (s.sized q ix sub 1 data (execLinkEnableWrite q p b s))
    | _, some p, _ =>
      let addr := BitVec.ofNat 14 (field v 29 16)
      some (s.sized q ix sub 4 data (match v / 2 ^ 30 with
        | 1 => execAuxRead q p addr s
        | 2 => execAuxWrite q p addr (BitVec.ofNat 16 v) s
        | op => .next (s.auxRequest q p op addr.toNat (v % 65536))))
    | _, _, some n => some (s.sized q ix sub 1 data (execProfStart q ⟨17 + n.val, by have := n.isLt; omega⟩ b s))
    | _, _, _ => none
  | _, 9 => (within 0x5801 0x20 20 ix).map fun n => s.sized q ix sub 1 data (execChainCommit q n b s)
  | _, 0x0C => (within 0x580C 0x20 20 ix).map fun n => s.sized q ix sub 1 data (execInjStart q n b s)
  | _, _ => none

/-- A write of MoveCommand: the code in [15:8], the mask in [7:0] (R239). -/
def State.moveCommand (s : State) (q : Sess) (a : AxisId) (v : Nat) : Out :=
  match v / 256 with
  | 1 => execEnable q a s
  | 2 => execDisable q a s
  | 3 => execMoveAbs q a s
  | 4 => execMoveRel q a s
  | 5 => execJog q a s
  | 6 => execStop q a s
  | 7 => execHome q a s
  | 8 => execCoord q a (BitVec.ofNat 8 v) s
  | 9 => execClear q a s
  | 10 => execFollow q a s
  | 11 => execSetPosition q a s
  | c => .next (s.axisWrite q a c (v % 256))

/-- Commands of 0x6xxx and 0x7xxx. -/
def State.commandAxes (s : State) (q : Sess) (ix sub : Nat) (data : Bytes) : Option State :=
  let v := leNat data
  let b : Byte := BitVec.ofNat 8 v
  match ix, sub with
  | 0x7200, 6 => some (s.sized q ix sub 1 data (execOutCommit q b s))
  | 0x7200, 0x0C => some (s.sized q ix sub 1 data (execReflatten q b s))
  | _, _ =>
    match within 0x6001 0x100 4 ix, within 0x6002 0x100 4 ix, within 0x7000 1 5 ix, within 0x7100 1 8 ix, within 0x7810 1 8 ix, sub with
    | some a, _, _, _, _, 1 => some (s.sized q ix sub 2 data (s.moveCommand q a v))
    | _, some a, _, _, _, 1 => some (s.sized q ix sub 4 data (execVelLimitWrite q a (BitVec.ofNat 32 v) s))
    | _, some a, _, _, _, 2 => some (s.sized q ix sub 4 data (execAccelLimitWrite q a (BitVec.ofNat 32 v) s))
    | _, _, some p, _, _, 0x0A => some (s.sized q ix sub 1 data (execPortCommit q p b s))
    | _, _, some p, _, _, 0x0F => some (s.sized q ix sub 1 data (execTrigNow q p b s))
    | _, _, _, some k, _, 0x11 => some (s.sized q ix sub 1 data (execPlaneFlip q k b s))
    | _, _, _, some k, _, 0x12 => some (s.sized q ix sub 1 data (execPlaneCommit q k b s))
    | _, _, _, _, some t, n =>
      if h : 1 ≤ n ∧ n ≤ 4 then
        some (s.sized q ix sub 2 data (execDutyWrite q t ⟨n - 1, by omega⟩ (BitVec.ofNat 16 v) s))
      else none
    | _, _, _, _, _, _ => none

/-- Commands of 0xAxxx (Table 18.7). -/
def State.commandSecurity (s : State) (q : Sess) (ix sub : Nat) (data : Bytes) : Option State :=
  let b : Byte := BitVec.ofNat 8 (leNat data)
  match ix, sub with
  | 0xA000, 1 => some (s.sized q ix sub 1 data (execCertifiedModeWrite q b s))
  | 0xA010, 1 => some (nextOr s (execPackageData q 0 true data s))
  | 0xA020, 3 => some (s.sized q ix sub 1 data (execTamperAck q b s.sec.tamperInputs s))
  | 0xA030, 1 => some (nextOr s (execFirmwareImage q (Config.parseImage data) s))
  | 0xA030, 3 => some (s.sized q ix sub 1 data (execFirmwareActivate q b s))
  | 0xA030, 6 =>
    -- whether the known-answer tests pass, the write does not tell (row 3)
    let r := s.takeFree
    some (s.sized q ix sub 1 data (execSelfTestRun q b (r.1 % 2 == 0) r.2))
  | _, _ => (within 0xA100 1 32 ix).map fun n => nextOr s (execAccountWrite q n (BitVec.ofNat 8 sub) data s)

/-- A write of CalCommand: the procedure in [15:8], the laser in [7:0]; 0xFF00 stops (R194, Table 9.4). -/
def State.calCommand (s : State) (q : Sess) (v : Nat) : Out :=
  let p : Byte := BitVec.ofNat 8 v
  match v / 256 with
  | 0x01 => execInitHead q p s
  | 0x02 => execHeadMap q p s
  | 0x03 => execFocusMap q p s
  | 0x04 => execGateAlign q p s
  | 0x05 => execDriftPoint q p s
  | 0x06 => execCrossCheck q p s
  | 0x07 => execPowerLin q p s
  | 0x08 => execPdGain q p s
  | 0x09 => execLinkEye q p s
  | 0x0A => execSensorOffset q p s
  | 0x0B => execOscModel q p s
  | _ => if v = 0xFF00 then execCalStop q s else .next (s.host q 0xE000 1 v (refused · 0x0201))

/-- Commands of 0xBxxx to 0xExxx. -/
def State.commandOther (s : State) (q : Sess) (ix sub : Nat) (data : Bytes) : Option State :=
  let v := leNat data
  let b : Byte := BitVec.ofNat 8 v
  match ix, sub with
  | 0xB010, 4 => some (s.sized q ix sub 1 data (if v = 0 then execSnapClose q b s else execSnapOpen q b s))
  | 0xD000, 1 => some (nextOr s (execCompressSubmit q data s))
  | 0xD000, 5 => some (s.sized q ix sub 4 data (execCompressCancel q (BitVec.ofNat 32 v) s))
  | 0xE000, 1 => some (s.sized q ix sub 2 data (s.calCommand q v))
  | 0xE000, 5 => some (s.sized q ix sub 1 data (match v with
      | 1 => execCalAcceptCommit q s
      | 2 => execCalAcceptDiscard q s
      | n => .next (s.host q ix sub n (refused · 0x0201))))
  | 0xE011, 1 => some (s.sized q ix sub 4 data (execPowerReading q (BitVec.ofNat 32 v) s))
  | _, _ =>
    match within 0xC010 1 2 ix, within 0xE030 1 13 ix, sub with
    | some c, _, 8 => some (s.sized q ix sub 1 data (execMarkedDeviceClear q c b s))
    | _, some r, 3 => some (nextOr s (execRecordImport q r data s))
    | _, _, _ => none

/-- A write that is a command of its own; none for every other entry. -/
def State.commandWrite (s : State) (q : Sess) (ix sub : Nat) (data : Bytes) : Option State :=
  match ix / 0x1000 with
  | 0x1 | 0x2 | 0x8 => s.commandBuild q ix sub data
  | 0x3 | 0x4 | 0x5 => s.commandEngines q ix sub data
  | 0x6 | 0x7 => s.commandAxes q ix sub data
  | 0xA => s.commandSecurity q ix sub data
  | 0xB | 0xC | 0xD | 0xE => s.commandOther q ix sub data
  | _ => none

/-- The field region of a laser lies inside the bed and inside the head's square (R89, R90); a head that has no record
has no square to leave. -/
def State.fieldOk (s : State) (p : LaserId) : Bool :=
  let v := s.val (0x2810 + p.val)
  let inBed := fun (x y : Int) =>
    decide (-(um (s.nat 0x2800 1)) ≤ 2 * x) && decide (2 * x ≤ um (s.nat 0x2800 1))
      && decide (-(um (s.nat 0x2800 2)) ≤ 2 * y) && decide (2 * y ≤ um (s.nat 0x2800 2))
  let pl : Placement := { xc := v 1, yc := v 2, rot := v 3 }
  let inHead := fun (x y : Int) =>
    match s.recordOf p.val with
    | none => true
    | some r =>
      let (hx, hy) := headXY pl x y
      decide (ratAbs hx * 2 ≤ r.wBed) && decide (ratAbs hy * 2 ≤ r.wBed)
  decide (v 4 ≤ v 5) && decide (v 6 ≤ v 7)
    && [(v 4, v 6), (v 4, v 7), (v 5, v 6), (v 5, v 7)].all fun (c : Int × Int) => inBed c.1 c.2 && inHead c.1 c.2

/-- Values strictly rising. -/
def rising : List Int → Bool
  | a :: b :: t => decide (a < b) && rising (b :: t)
  | _ => true

/-- The state that a write would leave is consistent with other entries (R278 step 4, 0x0203). -/
def State.consistentAfter (t : State) (ix sub : Nat) : Bool :=
  match ix, sub with
  | 0x5200, 1 | 0x2800, _ =>
    t.nat 0x5200 1 != 50 || (decide (t.nat 0x2800 1 ≤ 400000) && decide (t.nat 0x2800 2 ≤ 300000))
  | 0x5200, 3 | 0x5200, 4 | 0x5200, 5 => decide (t.nat 0x5200 3 + 4 * t.nat 0x5200 4 + 4 * t.nat 0x5200 5 ≤ 65536)
  | 0x5210, _ => rising ((List.range 16).map fun i => t.val 0x5210 (i + 1))
  | 0x9012, 3 => decide (t.nat 0x9012 2 ≤ t.nat 0x9012 3)
  | _, _ =>
    match within 0x2810 1 12 ix with
    | some p => t.fieldOk p
    | none =>
      match within 0x580B 0x20 20 ix, sub with
      | some _, 3 => decide (t.val ix 2 < t.val ix 3)
      | _, _ =>
        match within 0x5A2D 0x20 3 ix, within 0x5A2F 0x20 3 ix with
        | some n, _ => rising ((List.range (t.nat (ix + 2) 2)).map fun i => t.val (0x5A2D + 0x20 * n.val) (i + 1))
        | _, some n => sub != 2 || rising ((List.range (t.nat ix 2)).map fun i => t.val (0x5A2D + 0x20 * n.val) (i + 1))
        | none, none =>
          match within 0x6001 0x100 4 ix, within 0x6002 0x100 4 ix, within 0x6005 0x100 4 ix, within 0x6007 0x100 4 ix, sub with
          | some a, _, _, _, 3 => decide ((t.val ix 3).natAbs ≤ t.nat (axisIx 0x6002 a) 1)
          | _, some _, _, _, 4 => decide (t.nat ix 2 ≤ t.nat ix 4)
          | _, _, some _, _, 10 => decide (t.nat ix 9 < t.nat ix 10)
          | _, _, _, some a, 6 => decide (t.nat ix 6 ≤ t.nat (axisIx 0x6002 a) 1)
          | _, _, _, some _, 7 => decide (t.nat ix 7 ≤ t.nat ix 6)
          | _, _, _, _, _ => true

/-- Another node that is heard announces the own NodeId: DuplicateNode and record 0x1103; none is, and the flag clears
(R272). -/
def State.followDuplicate (s : State) : State :=
  let own := s.nat 0x1010 1
  match s.nodes.find? fun (x : Node) => x.id == own with
  | some x =>
    let t : State := { s with duplicateAt := some s.tick }
    if s.duplicateAt.isNone then t.emit 0x1103 255 [own, x.identity] else t
  | none => { s with duplicateAt := none }

/-- Put a numeric value where its entry lives. -/
def State.putEntry (s : State) (q : Sess) (ix sub : Nat) (v : Int) : State :=
  let snap := fun (f : Snapshot → Snapshot) => s.modSession q fun x => { x with snap := f x.snap }
  match ix, sub with
  | 0x1F00, 2 => { s with nv := { s.nv with nextProfile := v.toNat } }
  | 0xB000, 0x0A => { s with nv := { s.nv with auditAck := v.toNat } }
  | 0xB010, 1 => snap fun y => { y with fromSeq := v.toNat }
  | 0xB010, 2 => snap fun y => { y with toSeq := v.toNat }
  | 0xB010, 3 => snap fun y => { y with areaMask := v.toNat }
  | _, _ =>
    match within 0x3E00 1 512 ix with
    | some n =>
      { s with contexts := assocPut n.val ({ ((assocGet n.val s.contexts).getD {}) with priority := v.toNat } : Context) s.contexts }
    | none =>
      let t := s.put ix sub v
      let t := if ix = 0x1010 then t.followDuplicate else t
      -- in READY the clock role and the PTP port entries take effect at once (R296)
      if (ix = 0x8001 ∨ (within 0x8010 1 3 ix).isSome) ∧ s.modState = .ready then t.takePtp else t

/-- A state that the entry's own chapter asks for: OutputMode is written in DISABLED only (Table 11.5). -/
def State.stateRefusal (s : State) (ix sub : Nat) : Option Nat :=
  match within 0x6003 0x100 4 ix, sub with
  | some a, 1 => if s.axes[a].st = .disabled then none else some 0x0301
  | _, _ => none

/-- A numeric entry takes a value, or refuses it (R277, R278). -/
def State.writeNumber (s : State) (q : Sess) (ix sub : Nat) (d : Entry) (data : Bytes) : State × Nat :=
  let v := decodeValue d.ty data
  match s.stateRefusal ix sub with
  | some e => refused s e
  | none =>
    if data.length ≠ typeSize d.ty then refused s 0x0202
    else if !inRange d v || !s.valueOk ix sub v then refused s 0x0201
    else
      let t := s.putEntry q ix sub v
      if t.consistentAfter ix sub then accepted t else refused s 0x0203

/-- An octet entry takes a value, or refuses it. -/
def State.writeOctets (s : State) (ix sub : Nat) (d : Entry) (data : Bytes) : State × Nat :=
  match blobStatus d ix sub data with
  | 0 => accepted (s.putBlob ix sub data)
  | e => refused s e

/-- The effect of a write to an entry with no behaviour of its own. -/
def State.writeEntry (s : State) (q : Sess) (ix sub : Nat) (data : Bytes) : State × Nat :=
  match s.writeSecurity ix sub data, findEntry ix sub with
  | some r, _ => r
  | none, some d =>
    (match d.ty with
    | .str | .dom => s.writeOctets ix sub d data
    | _ => s.writeNumber q ix sub d data)
  | none, none => refused s 0x0102

/-- A whole value is written: the entry's own command, or the entry. -/
def State.writeWhole (s : State) (q : Sess) (ix sub : Nat) (data : Bytes) : State :=
  match s.commandWrite q ix sub data with
  | some t => t
  | none => s.host q ix sub (leNat data) (·.writeEntry q ix sub data)

/-- ENTRY_WRITE: a whole value written to an entry (R276 to R279). -/
def execEntryWrite (q : Sess) (index : BitVec 16) (sub : Byte) (data : Bytes) (s : State) : Out :=
  .next (s.writeWhole q index.toNat sub.toNat data)

end Sys2Proof.Machine
end

