-- ==== Sys2Proof/Machine/Choyr.lean ====
section
/-!
DEFINITION. The Choyr link (R261 to R275): messages and their elements, requests of a session, cyclic data, announcements,
the opening and closing of sessions, and the ring.
-/
namespace Sys2Proof.Machine

/-- Where a datagram or frame goes in `sent`: 0 and 1 ring ports A and B, 16 + q session q, 32 a peer that gets no session,
64 to 67 the domain group by IPv4 and IPv6 on the ring and on the uplink. -/
abbrev sessionKey (q : Sess) : Nat := 16 + q.val

/-- Put an octet string on a link. -/
def State.send (s : State) (key : Nat) (b : Bytes) : State := { s with sent := (key, b) :: s.sent }

/-- The greatest message of a session: MaxMessage, and the MTU of its interface less 100 octets (R261, R264). -/
def State.messageRoom (s : State) (q : Sess) : Nat :=
  min (s.nat 0x1012 2) (if (s.sessions[q]).any (·.uplink) then 8900 else 1400)

/-- Put a datagram into a session (R364: its records are counted). -/
def State.sendTo (s : State) (q : Sess) (b : Bytes) : State :=
  (s.modSession q fun x => { x with sent := x.sent + 1 }).send (sessionKey q) b

/-- An element: type, length, value, padding (R265). -/
def element (type : Nat) (value : Bytes) : Bytes := pad4 (leBytes 2 type ++ leBytes 2 value.length ++ value)

/-- A message: the header of Table 12.1 and its elements. -/
def message (minor type src dst seq : Nat) (elements : Bytes) : Bytes :=
  leBytes 2 0x4359 ++ leBytes 1 3 ++ leBytes 1 minor ++ leBytes 1 type ++ leBytes 1 0 ++ leBytes 2 src ++ leBytes 2 dst
    ++ leBytes 2 elements.length ++ leBytes 4 seq ++ elements

/-- The elements of a message; none where they overrun it (R265). -/
def elementsOf : Nat → Bytes → Option (List (Nat × Bytes))
  | 0, _ => some []
  | f + 1, b =>
    if b = [] then some []
    else
      let n := leAt b 2 2
      let size := (4 + n + 3) / 4 * 4
      if b.length < size then none else (elementsOf f (b.drop size)).map ((leAt b 0 2, slice b 4 n) :: ·)

/-- A message is discarded and counted; record 0x1109 at most once per second, with the count (R265). Causes: 1 Magic,
2 Major, 3 overrun, 4 Type, 5 size, 6 tag, 7 number of elements. -/
def State.discard (s : State) (cause : Nat) : State :=
  let s := s.bump 0x1017 2
  let n := s.discardSince + 1
  if (s.discardAt.map fun t => decide (t + msTicks 1000 ≤ s.tick)).getD true then
    ({ s with discardAt := some s.tick, discardSince := 0 } : State).emit 0x1109 255 [n, cause]
  else { s with discardSince := n }

/-- Why a message is discarded, or its elements (R264, R265). -/
def State.openMessage (s : State) (m : Bytes) : Except Nat (List (Nat × Bytes)) :=
  if s.nat 0x1012 2 < m.length then .error 5
  else if m.length < 16 ∨ leAt m 0 2 ≠ 0x4359 then .error 1
  else if leAt m 2 1 ≠ 3 then .error 2
  else if leAt m 4 1 = 0 ∨ 10 < leAt m 4 1 then .error 4
  else if m.length < 16 + leAt m 0x0A 2 then .error 3
  else
    match elementsOf m.length (slice m 16 (leAt m 0x0A 2)) with
    | some l => .ok l
    | none => .error 3

/-- Minor in which a request is answered (R273). -/
def answerMinor (m : Bytes) : Nat := min (leAt m 3 1) 2

/-- The answer to a request: its Sequence, the module's node and the request's source (Table 12.1). -/
def State.answerTo (s : State) (m : Bytes) (type : Nat) (elements : Bytes) : Bytes :=
  message (answerMinor m) type (s.nat 0x1010 1) (leAt m 6 2) (leAt m 0x0C 4) elements

/-- A request of a type on a session (R264, R265, R267): a repeated one gets the stored answer again, any other is carried
out and its answer stored. The answer goes out while the session lives. -/
def State.request (s : State) (q : Sess) (m : Bytes) (type : Nat)
    (act : State → List (Nat × Bytes) → State × Except Nat Bytes) : State :=
  if !s.served q then s
  else
    let s := (s.touch q).modSession q fun x => { x with received := x.received + 1 }
    match s.openMessage m with
    | .error e => s.discard e
    | .ok l =>
      if leAt m 4 1 ≠ type then s
      else
        let seq := leAt m 0x0C 4
        match (s.sessions[q]).bind fun x => assocGet seq x.responses with
        | some r => s.sendTo q r
        | none =>
          match act s l with
          | (t, .error e) => t.discard e
          | (t, .ok b) =>
            let r := t.answerTo m (type + 1) b
            (t.modSession q fun x => { x with responses := ((seq, r) :: x.responses).take 64 }).sendTo q r

/-- The entry did not exist yet in the minor of a request (R273). -/
def tooNew (minor index sub : Nat) : Bool := decide (minor < 2) && decide (minor < Config.entryMinor (entryKey index sub) % 3)

/-- Why a read of an entry is refused (R273, R276, R278 and the entry's own rule). -/
def State.readStatus (s : State) (q : Sess) (minor index sub : Nat) : Option Nat :=
  match findEntry index sub with
  | none => some (s.missing index)
  | some d =>
    if tooNew minor index sub then some 0x0101
    else
      match (s.sessions[q]).bind fun x => s.accessRefusal x.role index sub d.acc false 0 with
      | some e => some e
      | none => s.readRefusal q index sub

/-- The octets of an entry for a read; LatchData empties its queue (R300), SnapData keeps the length it was opened with
(R339). -/
def State.takeEntry (s : State) (q : Sess) (index sub : Nat) : State × Bytes × Nat :=
  match within 0x8021 1 2 index, sub with
  | some i, 2 =>
    let t := nextOr s (execLatchDataRead q i s)
    (t, t.answerData, t.answerData.length)
  | _, _ =>
    match findEntry index sub with
    | none => (s, [], 0)
    | some d =>
      let b := s.entryBytes q index sub d
      let t := if freeRead s index sub then s.takeFree.2 else s
      if index = 0xB010 ∧ sub = 6 then (t, b, ((s.sessions[q]).map (·.snap.total)).getD b.length) else (t, b, b.length)

/-- A ReadResult element (Table 12.3). -/
def readResult (index sub status total offset : Nat) (data : Bytes) : Bytes :=
  element 0x0002 (leBytes 2 index ++ leBytes 1 sub ++ leBytes 1 0 ++ leBytes 2 status ++ leBytes 2 0 ++ leBytes 4 total
    ++ leBytes 4 offset ++ data)

/-- One target is read into at most `room` octets of element (R270). What TotalLength a refusal shows, no rule says: a free
value (row 3). -/
def State.readTarget (s : State) (q : Sess) (minor room : Nat) (x : Bytes) : State × Bytes :=
  let index := leAt x 0 2
  let sub := leAt x 2 1
  let offset := leAt x 4 4
  let refuse := fun (s : State) (e : Nat) =>
    let r := s.takeFree
    (({ r.2 with answer := e, answerData := [] } : State), readResult index sub e (r.1 % 2 ^ 32) offset [])
  if x.length ≠ 12 then refuse s 0x0202
  else
    match s.readStatus q minor index sub with
    | some e => refuse s e
    | none =>
      let (t, b, total) := s.takeEntry q index sub
      if total < offset then refuse t 0x0201
      else
        let d := slice b offset (min (leAt x 8 4) (room - 20))
        ({ t with answer := 0, answerData := d }, readResult index sub 0 total offset d)

/-- Targets in order; each later one keeps 20 octets for its own result (R264, R270). -/
def State.readTargets (s : State) (q : Sess) (minor : Nat) : Nat → List Bytes → State × Bytes
  | _, [] => (s, [])
  | room, x :: t =>
    let r := s.readTarget q minor ((room - 20 * t.length) / 4 * 4) x
    let u := r.1.readTargets q minor (room - r.2.length) t
    (u.1, r.2 ++ u.2)

/-- READ_REQ (R270). -/
def execReadReq (q : Sess) (msg : Bytes) (s : State) : Out :=
  .next <| s.request q msg 0x02 fun s l =>
    let targets := (l.filter fun x => x.1 == 0x0001).map (·.2)
    if targets = [] ∨ 64 < targets.length then (s, .error 7)
    else
      let r := s.readTargets q (leAt msg 3 1) (s.messageRoom q - 16) targets
      (r.1, .ok r.2)

/-- What a session has staged for an entry (R270). -/
def Session.stagedFor (x : Session) (key : Nat) : Bytes := (assocGet key x.staged).getD []

/-- Put or drop what a session has staged for an entry. -/
def State.stageFor (s : State) (q : Sess) (key : Nat) (b : Option Bytes) : State :=
  s.modSession q fun x => { x with staged := match b with | some b => assocPut key b x.staged | none => assocDel key x.staged }

/-- A segment of an octet value: staged, refused where it does not continue the staged data, and with FINAL the value is
written (R270). -/
def State.writeSegment (s : State) (q : Sess) (index sub offset : Nat) (final : Bool) (data : Bytes) : State :=
  let key := entryKey index sub
  let have_ := ((s.sessions[q]).map (·.stagedFor key)).getD []
  if offset ≠ have_.length then s.host q index sub 0 fun s => (s.stageFor q key none, 0x0202)
  else if final then (s.stageFor q key none).writeWhole q index sub (have_ ++ data)
  else s.segment q index sub fun s => accepted (s.stageFor q key (some (have_ ++ data)))

/-- One Write element is carried out; its status is the answer (R268 to R270, R273, R276). -/
def State.writeElement (s : State) (q : Sess) (minor : Nat) (x : Bytes) : State :=
  let index := leAt x 0 2
  let sub := leAt x 2 1
  let final := bitOf (leAt x 3 1) 0
  let offset := leAt x 4 4
  let data := x.drop 8
  if x.length < 8 then (s.touch q).reply 0x0202
  else
    match findEntry index sub with
    | none => s.host q index sub 0 accepted
    | some d =>
      if tooNew minor index sub then (s.touch q).reply 0x0101
      else if index = 0xA010 ∧ sub = 1 then nextOr s (execPackageData q (BitVec.ofNat 32 offset) final data s)
      else if d.ty = .str ∨ d.ty = .dom then s.writeSegment q index sub offset final data
      else if !final ∨ offset ≠ 0 then s.host q index sub (leNat data) (refused · 0x0202)
      else s.writeWhole q index sub data

/-- A WriteStatus element (Table 12.3). -/
def writeStatus (index sub status : Nat) : Bytes :=
  element 0x0004 (leBytes 2 index ++ leBytes 1 sub ++ leBytes 1 0 ++ leBytes 2 status ++ leBytes 2 0)

/-- Writes in element order, each seeing the results of those before it (R268). -/
def State.writeElements (s : State) (q : Sess) (minor : Nat) : List Bytes → State × Bytes
  | [] => (s, [])
  | x :: t =>
    let s := s.writeElement q minor x
    let r := s.writeElements q minor t
    (r.1, writeStatus (leAt x 0 2) (leAt x 2 1) s.answer ++ r.2)

/-- WRITE_REQ (R268 to R270). -/
def execWriteReq (q : Sess) (msg : Bytes) (s : State) : Out :=
  .next <| s.request q msg 0x04 fun s l =>
    let writes := (l.filter fun x => x.1 == 0x0003).map (·.2)
    if writes = [] ∨ 64 < writes.length then (s, .error 7)
    else
      let r := s.writeElements q (leAt msg 3 1) writes
      (r.1, .ok r.2)

/-- ECHO_REQ (R266): answered with ECHO_RSP. -/
def execEchoReq (q : Sess) (msg : Bytes) (s : State) : Out := .next <| s.request q msg 0x09 fun s _ => (s, .ok [])

/-- The instant of a subscription's period that device time, or while it is not valid the tick counter, has reached last:
in ns, and 0 or the whole of it in Seconds and Nanoseconds (R271). -/
def State.cycleInstant (s : State) (period : Nat) : Nat :=
  if s.time.status = 0 then s.tick / (period * 80000) * (period * 80000)
  else s.time.now / nsUnit / (period * 1000000) * (period * 1000000)

/-- Octets of a CYCLIC message with n octets of values at a minor. -/
def cyclicSize (n minor : Nat) : Nat := 16 + (4 + 20 + n + 3) / 4 * 4 + (if 2 ≤ minor then 16 else 0)

/-- Octets of the values of entries, in order. -/
def valuesSize (keys : List Nat) : Nat :=
  (keys.map fun k => ((findEntry (k / 256) (k % 256)).map fun d => typeSize d.ty).getD 0).sum

/-- Why an entry cannot be subscribed to (R271). -/
def State.subscribeStatus (s : State) (q : Sess) (minor : Nat) (before : List Nat) (key : Nat) : Option Nat :=
  match findEntry (key / 256) (key % 256) with
  | none => some 0x0101
  | some d =>
    if tooNew minor (key / 256) (key % 256) then some 0x0101
    else
      match (s.sessions[q]).bind fun x => s.accessRefusal x.role (key / 256) (key % 256) d.acc false 0 with
      | some e => some e
      | none =>
        if d.ty = .str ∨ d.ty = .dom ∨ s.messageRoom q < cyclicSize (valuesSize (before ++ [key])) 2 then some 0x0202 else none

/-- The first position of a list that cannot be subscribed to, and its status. -/
def State.subscribeFailure (s : State) (q : Sess) (minor : Nat) : List Nat → List Nat → Option (Nat × Nat)
  | _, [] => none
  | before, k :: t =>
    match s.subscribeStatus q minor before k with
    | some e => some (before.length, e)
    | none => s.subscribeFailure q minor (before ++ [k]) t

/-- Messages per second of every subscription but one (R271). -/
def State.cyclicLoad (s : State) (q : Sess) (id : Nat) : Rat :=
  ((List.finRange 16).map fun (r : Sess) =>
    (((s.sessions[r].map (·.subs)).getD []).map fun u =>
      if r = q ∧ u.id = id then (0 : Rat) else 1000 / ((max 1 u.period : Nat) : Rat)).sum).sum

/-- A subscription is set or ended; its CycleCount starts at a free value (row 3). -/
def State.subscribe (s : State) (q : Sess) (minor : Nat) (x : Bytes) : State × Nat × Nat :=
  let id := leAt x 0 1
  let count := leAt x 2 2
  let period := leAt x 4 4
  let keys := (List.range count).map fun i => leAt x (8 + 4 * i) 2 * 256 + leAt x (10 + 4 * i) 1
  let without := fun (y : Session) => y.subs.filter fun u => u.id != id
  if x.length ≠ 8 + 4 * count then (s, 0x0202, 0xFFFF)
  else if 7 < id ∨ 64 < count then (s, 0x0201, 0xFFFF)
  else if count = 0 then (s.modSession q fun y => { y with subs := without y }, 0, 0xFFFF)
  else if period = 0 ∨ 60000 < period then (s, 0x0201, 0xFFFF)
  else
    match s.subscribeFailure q minor [] keys with
    | some (i, e) => (s, e, i)
    | none =>
      if (4000 : Rat) < s.cyclicLoad q id + 1000 / ((period : Nat) : Rat) then (s, 0x0402, 0xFFFF)
      else
        let r := s.takeFree
        let u : Subscription :=
          { id := id, period := period, entries := keys, count := r.1 % 2 ^ 32, last := s.cycleInstant period }
        (r.2.modSession q fun y => { y with subs := without y ++ [u] }, 0, 0xFFFF)

/-- SUBSCRIBE_REQ (R271). -/
def execSubscribeReq (q : Sess) (msg : Bytes) (s : State) : Out :=
  .next <| s.request q msg 0x06 fun s l =>
    match l.filter fun x => x.1 == 0x0020 with
    | [(_, x)] =>
      let r := s.subscribe q (leAt msg 3 1) x
      (r.1.reply r.2.1, .ok (element 0x0021
        (leBytes 1 (leAt x 0 1) ++ leBytes 1 0 ++ leBytes 2 r.2.1 ++ leBytes 2 r.2.2 ++ leBytes 2 0)))
    | _ => (s, .error 7)

/-- A value is taken under an open translation fault, or the FAULT state, of its area (Table 12.3; DEDUCED, row 25). -/
def State.qualityBad (s : State) (key : Nat) : Bool :=
  let ix := key / 256
  let held := fun (m : Master) => s.faults.any fun f => f.master == masterCode m
  if h : 0x3000 ≤ ix ∧ ix < 0x3D00 then
    s.engines[(ix - 0x3000) / 256].st == .fault || held .fetch
  else if h : 0x6000 ≤ ix ∧ ix < 0x6400 then s.axes[(ix - 0x6000) / 256].st == .fault
  else
    match ix / 0x100 with
    | 0x3D | 0x3E | 0x3F => if ix = 0x3D10 then held .dma else held .spill
    | 0x52 => held .ledger
    | 0x70 => held .camera
    | 0x71 | 0x72 => held .compositor
    | 0xA0 => held .security
    | 0xB0 => held .recorder
    | 0xD0 => held .compression
    | _ => false

/-- The values of a subscription, packed in order at their natural sizes. -/
def State.packed (s : State) (q : Sess) (keys : List Nat) : Bytes :=
  keys.flatMap fun k => ((findEntry (k / 256) (k % 256)).map fun d => s.entryBytes q (k / 256) (k % 256) d).getD []

/-- CYCLIC messages are published: a node of its own number (R272). -/
def State.publishes (s : State) : Bool := s.nat 0x1010 1 != 0 && s.duplicateAt.isNone

/-- CYCLIC: the message of an instant, within 50 µs of it and once (R271, R273). -/
def execCyclic (q : Sess) (subId : Fin 8) (s : State) : Out :=
  match (s.sessions[q]).bind fun x => x.subs.find? fun u => u.id == subId.val with
  | none => .next s
  | some u =>
    let at_ := s.cycleInstant u.period
    let late := if s.time.status = 0 then decide (at_ + 4000 < s.tick) else decide (at_ + 50000 < s.time.now / nsUnit)
    if !s.served q || !s.publishes || at_ = u.last || late then .next s
    else
      let valid := s.time.status != 0
      let head := leBytes 1 subId.val ++ leBytes 1 0 ++ leBytes 2 0
      -- while device time is not valid Seconds is 0; what Nanoseconds then shows, no rule says: a free value
      let ns := s.takeFree
      let s := if valid then s else ns.2
      let stamp := leBytes 8 (if valid then at_ / 1000000000 else 0)
        ++ leBytes 4 (if valid then at_ % 1000000000 else ns.1 % 2 ^ 32)
      let data := element 0x0022 (head ++ leBytes 4 u.count ++ stamp ++ s.packed q u.entries)
      let quality := element 0x0023 (head ++ leBytes 8 (ofBits (u.entries.map s.qualityBad)))
      let peer := ((s.sessions[q]).map (·.peer)).getD 0
      let r := s.takeFree
      let m := message s.runningMinor 0x08 (s.nat 0x1010 1) peer (r.1 % 2 ^ 32)
        (data ++ if 2 ≤ s.runningMinor then quality else [])
      let s := r.2.modSession q fun x => { x with subs := x.subs.map fun (w : Subscription) =>
        if w.id = subId.val then { w with count := (w.count + 1) % 2 ^ 32, last := at_ } else w }
      .next (s.sendTo q m)

/-- The ANNOUNCE of the module (R272, Table 12.3). -/
def State.announcement (s : State) (seq : Nat) : Bytes :=
  let node := s.nat 0x1010 1
  let value := leBytes 2 node ++ leBytes 1 3 ++ leBytes 1 2 ++ leBytes 1 s.modState.code ++ leBytes 1 (b2n s.duplicateAt.isSome)
    ++ leBytes 2 0 ++ leBytes 8 Config.identity
  let body := element 0x0010 value
  let head := leBytes 2 0x4359 ++ leBytes 1 3 ++ leBytes 1 s.runningMinor ++ leBytes 1 1 ++ leBytes 1 0 ++ leBytes 2 node
    ++ leBytes 2 0 ++ leBytes 2 (body.length + 20) ++ leBytes 4 seq
  let tag := match s.nv.domainKey with
    | some k => fixedText 16 (Config.gmac k (head ++ body))
    | none => List.replicate 16 0
  head ++ body ++ element 0x0011 tag

/-- ANNOUNCE_SEND: every AnnouncePeriod, to the domain group on each interface by each protocol it carries (R261, R272). Its
Sequence no rule gives: a free value (row 3). -/
def execAnnounceSend (s : State) : Out :=
  if !choyrServed s.modState || decide (s.tick < s.announceAt) then .next s
  else
    let r := s.takeFree
    let m := s.announcement (r.1 % 2 ^ 32)
    let s : State := { r.2 with announceAt := s.tick + msTicks (s.nat 0x1012 5) }
    let s := if s.ringV4 = 0 then s else s.send 64 m
    let s := if s.uplinkV4 = 0 then s else s.send 66 m
    .next ((s.send 65 m).send 67 m)

/-- The running minor and the node that sets it: the lowest of the heard nodes and the module's own 2 (R273). -/
def State.minorNow (s : State) : Nat × Nat :=
  s.nodes.foldl (fun (b : Nat × Nat) x => if x.minor < b.1 then (x.minor, x.id) else b) (2, s.nat 0x1010 1)

/-- The running minor follows the nodes heard; record 0x1104 where it changes (R273). -/
def State.followMinor (s : State) : State :=
  let (m, n) := s.minorNow
  let t := { s with runningMinor := m, minorSetBy := n }
  if m = s.runningMinor then t else t.emit 0x1104 255 [s.runningMinor, m, n]

/-- A node of the armed package falls below its minimum: recorded, nothing else (R274). -/
def State.noteBelow (s : State) (x : Node) (old : Option Node) : State :=
  let armed := s.modState == .armed || s.modState == .building || s.modState == .paused
  match s.pkg.inForce with
  | some p =>
    if armed && p.nodes.contains x.id && decide (x.minor < p.minMinor) && (old.map fun y => decide (p.minMinor ≤ y.minor)).getD true
    then s.emit 0x1104 255 [s.runningMinor, s.runningMinor, x.id]
    else s
  | none => s

/-- A valid ANNOUNCE: the node is heard; another module with the own NodeId is a duplicate (R272, R273). -/
def State.hear (s : State) (x : Node) : State :=
  let own := s.nat 0x1010 1
  if x.id = own ∧ x.identity = Config.identity then s
  else
    let old := s.nodes.find? fun y => y.id == x.id
    let s : State := { s with nodes := s.nodes.filter (fun (y : Node) => y.id != x.id) ++ [x] }
    (s.followDuplicate.noteBelow x old).followMinor

/-- ANNOUNCE_RECEIVED: with a domain key only an ANNOUNCE whose tag verifies is accepted; without one every well-formed
ANNOUNCE is (R265, R272). -/
def execAnnounceReceived (msg : Bytes) (s : State) : Out :=
  if !choyrServed s.modState then .next s
  else
    match s.openMessage msg with
    | .error e => .next (s.discard e)
    | .ok l =>
      if leAt msg 4 1 ≠ 1 then .next s
      else
        match l.find? (fun x => x.1 == 0x0010), l.find? (fun x => x.1 == 0x0011) with
        | some (_, v), some (_, tag) =>
          let good := match s.nv.domainKey with
            | some k => tag == fixedText 16 (Config.gmac k (msg.take 16 ++ element 0x0010 v))
            | none => true
          let id := leAt v 0 2
          if v.length ≠ 16 ∨ tag.length ≠ 16 ∨ 16383 < id then .next (s.discard 3)
          else if leAt v 2 1 ≠ 3 then .next (s.discard 2)
          else if !good then .next (s.discard 6)
          else if id = 0 then .next s
          else .next (s.hear { id := id, minor := leAt v 3 1, identity := leAt v 8 8, heardAt := s.tick })
        | _, _ => .next (s.discard 7)

/-- NODE_UNHEARD: 10 s after its last valid ANNOUNCE a node is not heard; the duplicate flag clears with the duplicate
(R27, R272, R273). -/
def execNodeUnheard (node : BitVec 14) (s : State) : Out :=
  match s.nodes.find? fun x => x.id == node.toNat with
  | none => .next s
  | some x =>
    if s.tick < x.heardAt + msTicks 10000 then .next s
    else
      let s : State := { s with nodes := s.nodes.filter fun (y : Node) => y.id != node.toNat }
      .next s.followDuplicate.followMinor

/-- The role and account that a handshake earns; none where no account admits it (R362, R365). -/
def State.admission (s : State) (auth : AuthWay) : Option (Role × Option (Fin 32)) :=
  let named := fun (p : Account → Bool) => (List.finRange 32).find? fun n => p s.nv.accounts[n]
  let admitted := fun (n : Fin 32) =>
    let a := s.nv.accounts[n]
    let now := s.deviceTime.1
    let open_ := a.enabled && (a.expiresAt == 0 || decide (now < a.expiresAt))
    let vendor := a.role != 4 || (s.time.status != 0 && decide (now < s.nv.vendorWindowEnd))
    if open_ && vendor then some (roleOf a.role, some n) else none
  match auth with
  | .certificate f trusted => if trusted then (named fun a => !a.fingerprint.isEmpty && a.fingerprint == f).bind admitted else none
  | .psk name key =>
    if s.nv.pskEnable && key then (named fun a => !a.psk.isEmpty && !a.name.isEmpty && a.name == name).bind admitted else none
  | .commission key => if s.nv.commissioning && key then some (.integrator, none) else none

/-- SESSION_OPENED: a completed handshake opens a session; the seventeenth gets 0x0505 and is closed (R266, R362 to R365,
R371). -/
def execSessionOpened (peer : BitVec 14) (minor : Nat) (source : HostAddr) (auth : AuthWay) (s : State) : Out :=
  if !choyrServed s.modState || s.lockedOut source.ip.toNat || s.sec.cryptoFailed then .next s
  else
    match s.admission auth with
    | none => .next (s.failHandshake source.ip 1 none)
    | some (role, account) =>
      match (List.finRange 16).find? fun (q : Sess) => s.sessions[q].isNone with
      | none =>
        let r := s.takeFree
        .next (r.2.send 32 (message (min minor 2) 0x05 (s.nat 0x1010 1) peer.toNat (r.1 % 2 ^ 32) (writeStatus 0 0 0x0505)))
      | some q =>
        let checked := match auth with | .certificate _ _ => s.time.status != 0 | _ => true
        let x : Session :=
          { peer := peer.toNat, minor := min minor 2, role := role, account := account, ip := source.ip.toNat, uplink := source.uplink
            validityChecked := checked, lastRecord := s.tick }
        let s : State := { s with sessions := s.sessions.set q (some x), layer := { s.layer with hostLossTimer := none } }
        .next (s.emit 0x1101 q.val [q.val, peer.toNat, role.code, min minor 2, (b2n checked : Nat)])

/-- SESSION_TIMEOUT: no authenticated record for SessionTimeout (R27, R266). -/
def execSessionTimeout (q : Sess) (s : State) : Out :=
  match s.sessions[q] with
  | none => .next s
  | some x => if s.tick < x.lastRecord + msTicks (s.nat 0x1012 3) then .next s else .next (s.endSession q 1)

/-- HOST_LOSS: with HostLossAction 1, PAUSE at the next layer boundary after 10 s without a session (R275). -/
def execHostLoss (s : State) : Out :=
  match s.layer.hostLossTimer with
  | none => .next s
  | some t =>
    if s.nat 0x1012 4 ≠ 1 ∨ s.tick < t + msTicks 10000 ∨ s.openSessions ≠ 0 ∨ s.modState ≠ .building then .next s
    else
      let s := s.requestPause 0x0503
      .next { s with layer := { s.layer with hostLossTimer := none } }

/-- RING_FRAME_FORWARD: a frame from port A or B goes out of the other unless it is for the module alone, is its own, or is
a PTP frame (R262). -/
def execRingFrameForward (fromB toMe fromMe ptp : Bool) (frame : Bytes) (s : State) : Out :=
  let out := if fromB then 0 else 1
  if !choyrServed s.modState || toMe || fromMe || ptp || !s.ringUp.getLsbD out then .next s else .next (s.send out frame)

/-- RING_PORT: the link of port A or B is lost or returns (R263). -/
def execRingPort (portB up : Bool) (s : State) : Out :=
  let i := b2n portB
  if !choyrServed s.modState || s.ringUp.getLsbD i == up then .next s
  else
    let bit : BitVec 2 := BitVec.ofNat 2 (2 ^ i)
    let s : State := { s with ringUp := if up then s.ringUp ||| bit else s.ringUp &&& ~~~bit }
    let s := if up then s else s.bump 0x1016 2
    .next (s.emit 0x1105 i [(i : Int), (b2n up : Nat)])

end Sys2Proof.Machine
end

