-- ==== Sys2Proof/Machine/Dispatch.lean ====
section
/-!
DEFINITION. The meaning of each command: one arm per constructor of Instr, each a direct call of its meaning.
-/
namespace Sys2Proof.Machine

/-- The effect of a command on everything but the queue. -/
def exec (i : Instr) (s : State) : Host.Outcome State Fault Refusal :=
  match i with
  | .arm q => Sys2Proof.Machine.execArm q s
  | .disarm q => Sys2Proof.Machine.execDisarm q s
  | .start q => Sys2Proof.Machine.execStart q s
  | .pause q => Sys2Proof.Machine.execPause q s
  | .resume q => Sys2Proof.Machine.execResume q s
  | .abort q => Sys2Proof.Machine.execAbort q s
  | .clearSafe q => Sys2Proof.Machine.execClearSafe q s
  | .enterService q => Sys2Proof.Machine.execEnterService q s
  | .leaveService q => Sys2Proof.Machine.execLeaveService q s
  | .restart q => Sys2Proof.Machine.execRestart q s
  | .scheduledStartReached => Sys2Proof.Machine.execScheduledStartReached s
  | .scheduledStartWrite q data => Sys2Proof.Machine.execScheduledStartWrite q data s
  | .layerStartAtWrite q data => Sys2Proof.Machine.execLayerStartAtWrite q data s
  | .jump e => Sys2Proof.Machine.execJump e s
  | .mark e => Sys2Proof.Machine.execMark e s
  | .setMarkSpeed e => Sys2Proof.Machine.execSetMarkSpeed e s
  | .setJumpLimits e => Sys2Proof.Machine.execSetJumpLimits e s
  | .setPower e => Sys2Proof.Machine.execSetPower e s
  | .setFocus e => Sys2Proof.Machine.execSetFocus e s
  | .setLaserDelays e => Sys2Proof.Machine.execSetLaserDelays e s
  | .setCorner e => Sys2Proof.Machine.execSetCorner e s
  | .setpoint e => Sys2Proof.Machine.execSetpoint e s
  | .dwell e => Sys2Proof.Machine.execDwell e s
  | .tokenSignal e => Sys2Proof.Machine.execTokenSignal e s
  | .tokenWait e => Sys2Proof.Machine.execTokenWait e s
  | .tokenWaitSatisfied e => Sys2Proof.Machine.execTokenWaitSatisfied e s
  | .seam e => Sys2Proof.Machine.execSeam e s
  | .seamWaitEnd e => Sys2Proof.Machine.execSeamWaitEnd e s
  | .groupBegin e => Sys2Proof.Machine.execGroupBegin e s
  | .groupEnd e => Sys2Proof.Machine.execGroupEnd e s
  | .preempt e => Sys2Proof.Machine.execPreempt e s
  | .label e => Sys2Proof.Machine.execLabel e s
  | .layerEnd e => Sys2Proof.Machine.execLayerEnd e s
  | .endWord e => Sys2Proof.Machine.execEndWord e s
  | .update => Sys2Proof.Machine.execUpdate s
  | .powerSlot p => Sys2Proof.Machine.execPowerSlot p s
  | .upstreamFrame p frame => Sys2Proof.Machine.execUpstreamFrame p frame s
  | .hfaultUnavailable p => Sys2Proof.Machine.execHfaultUnavailable p s
  | .linkLost p => Sys2Proof.Machine.execLinkLost p s
  | .linkStartup p => Sys2Proof.Machine.execLinkStartup p s
  | .linkAlign p validChars phases roundTripNs => Sys2Proof.Machine.execLinkAlign p validChars phases roundTripNs s
  | .linkIdentify p => Sys2Proof.Machine.execLinkIdentify p s
  | .linkUp p => Sys2Proof.Machine.execLinkUp p s
  | .startupTimeout p => Sys2Proof.Machine.execStartupTimeout p s
  | .linkRetry p => Sys2Proof.Machine.execLinkRetry p s
  | .linkEnableWrite q p v => Sys2Proof.Machine.execLinkEnableWrite q p v s
  | .auxRead q p addr => Sys2Proof.Machine.execAuxRead q p addr s
  | .auxWrite q p addr data => Sys2Proof.Machine.execAuxWrite q p addr data s
  | .auxResponse p data => Sys2Proof.Machine.execAuxResponse p data s
  | .auxTimeout p => Sys2Proof.Machine.execAuxTimeout p s
  | .laserUnavailable p ready alarmL => Sys2Proof.Machine.execLaserUnavailable p ready alarmL s
  | .laserAvailable p readyTicks => Sys2Proof.Machine.execLaserAvailable p readyTicks s
  | .emitReadback p on => Sys2Proof.Machine.execEmitReadback p on s
  | .safetyOkFall lowSamples => Sys2Proof.Machine.execSafetyOkFall lowSamples s
  | .safetyOkRise highTicks => Sys2Proof.Machine.execSafetyOkRise highTicks s
  | .readyTimeout e => Sys2Proof.Machine.execReadyTimeout e s
  | .layerEndForced e => Sys2Proof.Machine.execLayerEndForced e s
  | .layerStart => Sys2Proof.Machine.execLayerStart s
  | .layerComplete => Sys2Proof.Machine.execLayerComplete s
  | .bufferEmptyStall e => Sys2Proof.Machine.execBufferEmptyStall e s
  | .stallResume e => Sys2Proof.Machine.execStallResume e s
  | .blockFetch e => Sys2Proof.Machine.execBlockFetch e s
  | .blockInflate idx => Sys2Proof.Machine.execBlockInflate idx s
  | .claimDecision e => Sys2Proof.Machine.execClaimDecision e s
  | .keepoutRelease e => Sys2Proof.Machine.execKeepoutRelease e s
  | .waitBound e => Sys2Proof.Machine.execWaitBound e s
  | .stealAttempt e => Sys2Proof.Machine.execStealAttempt e s
  | .tokenTimeout e => Sys2Proof.Machine.execTokenTimeout e s
  | .heldRemaindersLost => Sys2Proof.Machine.execHeldRemaindersLost s
  | .preemption e => Sys2Proof.Machine.execPreemption e s
  | .contextSpill => Sys2Proof.Machine.execContextSpill s
  | .contextFill c => Sys2Proof.Machine.execContextFill c s
  | .takeover failures found bad => Sys2Proof.Machine.execTakeover failures found bad s
  | .standinRoute => Sys2Proof.Machine.execStandinRoute s
  | .trimRequest q v => Sys2Proof.Machine.execTrimRequest q v s
  | .trimWithdraw q v => Sys2Proof.Machine.execTrimWithdraw q v s
  | .trimStart => Sys2Proof.Machine.execTrimStart s
  | .trimEnd pass codes => Sys2Proof.Machine.execTrimEnd pass codes s
  | .handBack => Sys2Proof.Machine.execHandBack s
  | .deposit e => Sys2Proof.Machine.execDeposit e s
  | .ledgerTileFill ti tj uncorrectable => Sys2Proof.Machine.execLedgerTileFill ti tj uncorrectable s
  | .ledgerSweep ti tj => Sys2Proof.Machine.execLedgerSweep ti tj s
  | .lookaheadResult e => Sys2Proof.Machine.execLookaheadResult e s
  | .samplePair p => Sys2Proof.Machine.execSamplePair p s
  | .anomalyStart p => Sys2Proof.Machine.execAnomalyStart p s
  | .laneRun n => Sys2Proof.Machine.execLaneRun n s
  | .feedbackReturned n => Sys2Proof.Machine.execFeedbackReturned n s
  | .axisLaneRun n input => Sys2Proof.Machine.execAxisLaneRun n input s
  | .chainCommit q n v => Sys2Proof.Machine.execChainCommit q n v s
  | .injStart q n v => Sys2Proof.Machine.execInjStart q n v s
  | .injectionEnd n => Sys2Proof.Machine.execInjectionEnd n s
  | .capStart q v => Sys2Proof.Machine.execCapStart q v s
  | .captureDone => Sys2Proof.Machine.execCaptureDone s
  | .profStart q n v => Sys2Proof.Machine.execProfStart q n v s
  | .initHead q p => Sys2Proof.Machine.execInitHead q p s
  | .headMap q p => Sys2Proof.Machine.execHeadMap q p s
  | .focusMap q p => Sys2Proof.Machine.execFocusMap q p s
  | .gateAlign q p => Sys2Proof.Machine.execGateAlign q p s
  | .driftPoint q p => Sys2Proof.Machine.execDriftPoint q p s
  | .crossCheck q p => Sys2Proof.Machine.execCrossCheck q p s
  | .powerLin q p => Sys2Proof.Machine.execPowerLin q p s
  | .powerReading q milliwatt => Sys2Proof.Machine.execPowerReading q milliwatt s
  | .readingTimeout => Sys2Proof.Machine.execReadingTimeout s
  | .pdGain q p => Sys2Proof.Machine.execPdGain q p s
  | .linkEye q p => Sys2Proof.Machine.execLinkEye q p s
  | .sensorOffset q p => Sys2Proof.Machine.execSensorOffset q p s
  | .oscModel q p => Sys2Proof.Machine.execOscModel q p s
  | .calStop q => Sys2Proof.Machine.execCalStop q s
  | .calAborted => Sys2Proof.Machine.execCalAborted s
  | .calDone obs => Sys2Proof.Machine.execCalDone obs s
  | .calAcceptCommit q => Sys2Proof.Machine.execCalAcceptCommit q s
  | .calAcceptDiscard q => Sys2Proof.Machine.execCalAcceptDiscard q s
  | .recordImport q r data => Sys2Proof.Machine.execRecordImport q r data s
  | .recordCommitDone programmed => Sys2Proof.Machine.execRecordCommitDone programmed s
  | .camFrameStart p vc => Sys2Proof.Machine.execCamFrameStart p vc s
  | .camLongPacket p vc dataType headerOk crcOk pixels => Sys2Proof.Machine.execCamLongPacket p vc dataType headerOk crcOk pixels s
  | .camFrameEnd p vc => Sys2Proof.Machine.execCamFrameEnd p vc s
  | .frameTimeout p => Sys2Proof.Machine.execFrameTimeout p s
  | .portCommit q p v => Sys2Proof.Machine.execPortCommit q p v s
  | .trigNow q p v => Sys2Proof.Machine.execTrigNow q p v s
  | .trigPeriod p => Sys2Proof.Machine.execTrigPeriod p s
  | .exposureEnd p => Sys2Proof.Machine.execExposureEnd p s
  | .planeCommit q k v => Sys2Proof.Machine.execPlaneCommit q k v s
  | .planeFlip q k v => Sys2Proof.Machine.execPlaneFlip q k v s
  | .scaleDone k lostGroups => Sys2Proof.Machine.execScaleDone k lostGroups s
  | .outputFrameBoundary => Sys2Proof.Machine.execOutputFrameBoundary s
  | .planeTransparent k => Sys2Proof.Machine.execPlaneTransparent k s
  | .outCommit q v => Sys2Proof.Machine.execOutCommit q v s
  | .reflatten q v => Sys2Proof.Machine.execReflatten q v s
  | .flattenDone => Sys2Proof.Machine.execFlattenDone s
  | .writebackFault unresolvable => Sys2Proof.Machine.execWritebackFault unresolvable s
  | .dpHpd high trains edid => Sys2Proof.Machine.execDpHpd high trains edid s
  | .dpRetrain trains => Sys2Proof.Machine.execDpRetrain trains s
  | .scanBoundary columnFails => Sys2Proof.Machine.execScanBoundary columnFails s
  | .ntcReading t reading => Sys2Proof.Machine.execNtcReading t reading s
  | .dutyWrite q t colour v => Sys2Proof.Machine.execDutyWrite q t colour v s
  | .enable q a => Sys2Proof.Machine.execEnable q a s
  | .enableDone a => Sys2Proof.Machine.execEnableDone a s
  | .disable q a => Sys2Proof.Machine.execDisable q a s
  | .moveAbs q a => Sys2Proof.Machine.execMoveAbs q a s
  | .moveRel q a => Sys2Proof.Machine.execMoveRel q a s
  | .jog q a => Sys2Proof.Machine.execJog q a s
  | .stop q a => Sys2Proof.Machine.execStop q a s
  | .home q a => Sys2Proof.Machine.execHome q a s
  | .coord q a mask => Sys2Proof.Machine.execCoord q a mask s
  | .clear q a => Sys2Proof.Machine.execClear q a s
  | .follow q a => Sys2Proof.Machine.execFollow q a s
  | .setPosition q a => Sys2Proof.Machine.execSetPosition q a s
  | .accelLimitWrite q a v => Sys2Proof.Machine.execAccelLimitWrite q a v s
  | .velLimitWrite q a v => Sys2Proof.Machine.execVelLimitWrite q a v s
  | .profilePeriod a vbusMv => Sys2Proof.Machine.execProfilePeriod a vbusMv s
  | .stopComplete a => Sys2Proof.Machine.execStopComplete a s
  | .inPosition a => Sys2Proof.Machine.execInPosition a s
  | .layerStageStart => Sys2Proof.Machine.execLayerStageStart s
  | .stepInEdge a dirPositive => Sys2Proof.Machine.execStepInEdge a dirPositive s
  | .encoderEdge a lineA lineB => Sys2Proof.Machine.execEncoderEdge a lineA lineB s
  | .sincosSample a sinRaw cosRaw => Sys2Proof.Machine.execSincosSample a sinRaw cosRaw s
  | .indexPulse a lineA lineB => Sys2Proof.Machine.execIndexPulse a lineA lineB s
  | .standstillTimeout a => Sys2Proof.Machine.execStandstillTimeout a s
  | .switchChange a sw level => Sys2Proof.Machine.execSwitchChange a sw level s
  | .stall a uA uB iA iB diA diB => Sys2Proof.Machine.execStall a uA uB iA iB diA diB s
  | .axisFeedbackLost a => Sys2Proof.Machine.execAxisFeedbackLost a s
  | .homingTimeout a => Sys2Proof.Machine.execHomingTimeout a s
  | .readReq q msg => Sys2Proof.Machine.execReadReq q msg s
  | .writeReq q msg => Sys2Proof.Machine.execWriteReq q msg s
  | .entryWrite q index sub data => Sys2Proof.Machine.execEntryWrite q index sub data s
  | .subscribeReq q msg => Sys2Proof.Machine.execSubscribeReq q msg s
  | .cyclic q subId => Sys2Proof.Machine.execCyclic q subId s
  | .echoReq q msg => Sys2Proof.Machine.execEchoReq q msg s
  | .announceSend => Sys2Proof.Machine.execAnnounceSend s
  | .announceReceived msg => Sys2Proof.Machine.execAnnounceReceived msg s
  | .nodeUnheard node => Sys2Proof.Machine.execNodeUnheard node s
  | .sessionOpened peer minor source auth => Sys2Proof.Machine.execSessionOpened peer minor source auth s
  | .sessionTimeout q => Sys2Proof.Machine.execSessionTimeout q s
  | .hostLoss => Sys2Proof.Machine.execHostLoss s
  | .ringFrameForward fromB toMe fromMe ptp frame => Sys2Proof.Machine.execRingFrameForward fromB toMe fromMe ptp frame s
  | .ringPort portB up => Sys2Proof.Machine.execRingPort portB up s
  | .storeProfile q v => Sys2Proof.Machine.execStoreProfile q v s
  | .profileStored programmed => Sys2Proof.Machine.execProfileStored programmed s
  | .switchProfile q v => Sys2Proof.Machine.execSwitchProfile q v s
  | .loadDefaults q v => Sys2Proof.Machine.execLoadDefaults q v s
  | .setTime q data => Sys2Proof.Machine.execSetTime q data s
  | .ptpSync p origin stamp newMaster supported => Sys2Proof.Machine.execPtpSync p origin stamp newMaster supported s
  | .ptpDelayMessage p message correction supported => Sys2Proof.Machine.execPtpDelayMessage p message correction supported s
  | .ptpAnnounce p grandmaster stepsRemoved utcOffset better states supported => Sys2Proof.Machine.execPtpAnnounce p grandmaster stepsRemoved utcOffset better states supported s
  | .ptpForward p source sequenceId kind residence correction => Sys2Proof.Machine.execPtpForward p source sequenceId kind residence correction s
  | .syncLoss => Sys2Proof.Machine.execSyncLoss s
  | .announceReceiptTimeout p states => Sys2Proof.Machine.execAnnounceReceiptTimeout p states s
  | .secondBoundary => Sys2Proof.Machine.execSecondBoundary s
  | .tickAnchor => Sys2Proof.Machine.execTickAnchor s
  | .ppsEnd => Sys2Proof.Machine.execPpsEnd s
  | .latchEdge idx level => Sys2Proof.Machine.execLatchEdge idx level s
  | .latchDataRead q idx => Sys2Proof.Machine.execLatchDataRead q idx s
  | .oscTrim => Sys2Proof.Machine.execOscTrim s
  | .clockMonitor lostNs reference locked => Sys2Proof.Machine.execClockMonitor lostNs reference locked s
  | .refresh c => Sys2Proof.Machine.execRefresh c s
  | .zqShort c => Sys2Proof.Machine.execZqShort c s
  | .neighbourRefresh c bank row => Sys2Proof.Machine.execNeighbourRefresh c bank row s
  | .refreshWindowEnd c => Sys2Proof.Machine.execRefreshWindowEnd c s
  | .patrolScrub c errors => Sys2Proof.Machine.execPatrolScrub c errors s
  | .deviceMarked c d => Sys2Proof.Machine.execDeviceMarked c d s
  | .memoryRequest c m rt address write errors => Sys2Proof.Machine.execMemoryRequest c m rt address write errors s
  | .ageRaise c => Sys2Proof.Machine.execAgeRaise c s
  | .markedDeviceClear q c v => Sys2Proof.Machine.execMarkedDeviceClear q c v s
  | .translationFault m inst space va write progress => Sys2Proof.Machine.execTranslationFault m inst space va write progress s
  | .faultResolved space page tables => Sys2Proof.Machine.execFaultResolved space page tables s
  | .faultTimeout => Sys2Proof.Machine.execFaultTimeout s
  | .tlbInvalidate space page => Sys2Proof.Machine.execTlbInvalidate space page s
  | .dmaSubmit q data => Sys2Proof.Machine.execDmaSubmit q data s
  | .dmaChunk space => Sys2Proof.Machine.execDmaChunk space s
  | .compressSubmit q data => Sys2Proof.Machine.execCompressSubmit q data s
  | .compressChunk => Sys2Proof.Machine.execCompressChunk s
  | .compressCancel q tag => Sys2Proof.Machine.execCompressCancel q tag s
  | .eventRecordTaken => Sys2Proof.Machine.execEventRecordTaken s
  | .pageProgram ok => Sys2Proof.Machine.execPageProgram ok s
  | .flushInterval ok => Sys2Proof.Machine.execFlushInterval ok s
  | .ringBlockErase ok => Sys2Proof.Machine.execRingBlockErase ok s
  | .mirrorWrite => Sys2Proof.Machine.execMirrorWrite s
  | .snapOpen q v => Sys2Proof.Machine.execSnapOpen q v s
  | .snapClose q v => Sys2Proof.Machine.execSnapClose q v s
  | .snapHoldExpiry q => Sys2Proof.Machine.execSnapHoldExpiry q s
  | .pfWarn mvA mvB belowUs => Sys2Proof.Machine.execPfWarn mvA mvB belowUs s
  | .pfStop mvA mvB bankMv loadMw belowUs => Sys2Proof.Machine.execPfStop mvA mvB bankMv loadMw belowUs s
  | .inputLost b mv belowUs => Sys2Proof.Machine.execInputLost b mv belowUs s
  | .inputRestored b mv aboveUs => Sys2Proof.Machine.execInputRestored b mv aboveUs s
  | .holdupReturn mv aboveUs => Sys2Proof.Machine.execHoldupReturn mv aboveUs s
  | .holdupRailLow bankMv => Sys2Proof.Machine.execHoldupRailLow bankMv s
  | .converterStop bankMv => Sys2Proof.Machine.execConverterStop bankMv s
  | .resumeCopy => Sys2Proof.Machine.execResumeCopy s
  | .resumeArm q v => Sys2Proof.Machine.execResumeArm q v s
  | .resumeDiscard q v => Sys2Proof.Machine.execResumeDiscard q v s
  | .housekeepingRound readings => Sys2Proof.Machine.execHousekeepingRound readings s
  | .sensorExcluded n => Sys2Proof.Machine.execSensorExcluded n s
  | .throttleStage2 => Sys2Proof.Machine.execThrottleStage2 s
  | .thermalShutdown n reading => Sys2Proof.Machine.execThermalShutdown n reading s
  | .thermalRestart => Sys2Proof.Machine.execThermalRestart s
  | .resetL lowNs => Sys2Proof.Machine.execResetL lowNs s
  | .watchdog => Sys2Proof.Machine.execWatchdog s
  | .firmwareFailover => Sys2Proof.Machine.execFirmwareFailover s
  | .powerOn mvA mvB vbatMv => Sys2Proof.Machine.execPowerOn mvA mvB vbatMv s
  | .resetRelease bankMv resetLHigh profSel => Sys2Proof.Machine.execResetRelease bankMv resetLHigh profSel s
  | .bootAuthenticated slots recoveryOk trained margins => Sys2Proof.Machine.execBootAuthenticated slots recoveryOk trained margins s
  | .selftestDone r => Sys2Proof.Machine.execSelftestDone r s
  | .vioLow mv => Sys2Proof.Machine.execVioLow mv s
  | .outputOverload output => Sys2Proof.Machine.execOutputOverload output s
  | .handshakeFailed ip cause account => Sys2Proof.Machine.execHandshakeFailed ip cause account s
  | .lockoutExpiry ip => Sys2Proof.Machine.execLockoutExpiry ip s
  | .keyUpdate q sending => Sys2Proof.Machine.execKeyUpdate q sending s
  | .accountWrite q n sub data => Sys2Proof.Machine.execAccountWrite q n sub data s
  | .packageData q offset final data => Sys2Proof.Machine.execPackageData q offset final data s
  | .packageDecrypted placement tables memoryOk => Sys2Proof.Machine.execPackageDecrypted placement tables memoryOk s
  | .firmwareImage q image => Sys2Proof.Machine.execFirmwareImage q image s
  | .firmwareActivate q v => Sys2Proof.Machine.execFirmwareActivate q v s
  | .selfTestRun q v pass => Sys2Proof.Machine.execSelfTestRun q v pass s
  | .cryptoSelftestFailure test => Sys2Proof.Machine.execCryptoSelftestFailure test s
  | .tamper lowInputs lowUs => Sys2Proof.Machine.execTamper lowInputs lowUs s
  | .zeroisationDone => Sys2Proof.Machine.execZeroisationDone s
  | .tamperAck q v inputsLow => Sys2Proof.Machine.execTamperAck q v inputsLow s
  | .certifiedModeWrite q v => Sys2Proof.Machine.execCertifiedModeWrite q v s
  | .pllLock => Sys2Proof.Machine.execPllLock s
  | .headTemperatureStale p => Sys2Proof.Machine.execHeadTemperatureStale p s
  | .brakeRelease a => Sys2Proof.Machine.execBrakeRelease a s
  | .enaOff a => Sys2Proof.Machine.execEnaOff a s
  | .vioRestored mv => Sys2Proof.Machine.execVioRestored mv s
  | .pfWarnCleared mvA mvB => Sys2Proof.Machine.execPfWarnCleared mvA mvB s
  | .chatterCleared a sw => Sys2Proof.Machine.execChatterCleared a sw s

end Sys2Proof.Machine
end

