-- ==== Sys2Proof/Machine/Tick.lean ====
section
/-!
DEFINITION. One period of TICK_CLK, which passes when no command waits (row 1): the tick counter and device time count,
what the tick itself does is done, and the time-driven rows due at the new tick are queued; when these and whatever
else came in the tick have run, the timeouts that expire at its end follow (R27).
-/
namespace Sys2Proof.Machine

/-- TICK_CLK runs: the PLL is locked and the module is not OFF (R9). -/
def State.clockRuns (s : State) : Bool := s.supply.pllLocked && s.modState != .off

/-- Ticks of 0.1 h, the unit of OperatingHours (0x1F02.02). -/
def hourUnit : Nat := 360 * 80000000

/-- A channel's byte count of the last second (0xC010.02). -/
def Dram.countSecond (d : Dram) (tick : Nat) : Dram :=
  if tick % 80000000 = 0 then { d with bytesLast := d.bytesNow, bytesNow := 0 } else d

/-- A tick is over: claims whose blockers changed in it are marked (R99), the timers of forced layer ends start (R87), and
credits that came back in it can be spent (R15). -/
def State.closeTick (s : State) : State :=
  let s := s.noteBlockers
  let s := if s.modState = .building then State.foldFin 13 s fun e s => s.startForced e else s
  ({ s with freed := [] } : State).evtRefill

/-- The counters of one tick: tick counter, device time (R288), operating hours (R332), memory throughput; line-groups
taken before this tick have been written to their ring, so their Q_IMG credits are back (R17). -/
def State.countTick (s : State) : State :=
  let t := s.tick + 1
  let h := s.nv.hourTicks + 1
  let nv := if hourUnit ≤ h then { s.nv with hourTicks := 0, operatingHours := s.nv.operatingHours + 1 }
    else { s.nv with hourTicks := h }
  { s with
    tick := t, nv := nv, time := s.time.advance t
    dram := s.dram.map fun d => d.countSecond t
    cams := s.cams.map fun c => { c with imgCredits := 2 } }

/-- Links that receive no frames give two invalid pairs an update, at the time frames would come (R117; that time, with no
RoundTrip measured, is the model's, row 105). -/
def State.deadPairs (s : State) : State :=
  if s.tick % 40 ≠ 0 || !linksRun s.modState then s
  else
    State.foldFin 12 s fun p s =>
      if s.lasers[p].link == .off || s.lasers[p].link == .idle then s.pushPairs p (s.frameNo p) false 0 else s

/-- Gate edges due (R64), seam signals due (R112), remainders that can be taken up (R102), and the memory channels' next
requests (R315). -/
def State.tickWork (s : State) : State :=
  let s := (s.applyEdges.seamSignals).assignRemainders.deadPairs.ptpSends
  State.foldFin 2 s fun c s => s.serveNext c

/-- The row of a vector word. -/
def wordRow (e : EngineId) : VWord → Instr
  | .jump .. => .jump e
  | .mark .. => .mark e
  | .setMarkSpeed _ => .setMarkSpeed e
  | .setJumpLimits .. => .setJumpLimits e
  | .setPower _ => .setPower e
  | .setFocus _ => .setFocus e
  | .setLaserDelays .. => .setLaserDelays e
  | .setCorner .. => .setCorner e
  | .setpoint .. => .setpoint e
  | .dwell .. => .dwell e
  | .token false _ _ => .tokenSignal e
  | .token true _ _ => .tokenWait e
  | .seam .. => .seam e
  | .group true _ => .groupBegin e
  | .group false _ => .groupEnd e
  | .preempt => .preempt e
  | .label .. => .label e
  | .layerEnd _ => .layerEnd e
  | .endWord => .endWord e

/-- Set-point generation has reached a word: the end of what is planned comes within the lead (R57, R59). A MARK or a dwell
with the gate on that begins a unit posts its claim one update earlier than its motion is planned (R93). -/
def State.wordReached (s : State) (e : EngineId) : VWord → Bool
  | .jump .. | .dwell false _ => s.motionReached e
  | .mark .. | .dwell true _ =>
    let g := s.engines[e]
    if !g.inSegment && g.claimId.isNone then s.claimReached e else s.motionReached e
  | _ => s.claimReached e

/-- The word under execution of an engine that generation has reached. -/
def State.wordDue (s : State) (e : EngineId) : List Instr :=
  match s.engines[e].word with
  | some w => if (s.eff e == .running || s.eff e == .yielding) && s.wordReached e w then [wordRow e w] else []
  | none => []

/-- A timer is due. -/
def dueAt (tick : Nat) : Option Nat → Bool
  | some t => decide (t ≤ tick)
  | none => false

/-- A row where a condition holds. -/
def row (b : Bool) (i : Instr) : List Instr := if b then [i] else []

/-- What comes before the words of an engine: the ends of its waits, releases, a pre-emption. -/
def State.engineDue (s : State) (e : EngineId) : List Instr :=
  let g := s.engines[e]
  row (g.wait matches .token ..) (.tokenWaitSatisfied e) ++ row (g.wait matches .seam ..) (.seamWaitEnd e)
    ++ row (s.claims.any fun x => x.engine == e.val) (.keepoutRelease e)
    ++ row (s.eff e == .running || s.eff e == .yielding || s.eff e == .parked || s.eff e == .armed) (.preemption e)

/-- The arbiter's decision, where one is due, and engines that wait for a Q_CLAIM credit (R19, R99). -/
def State.claimDue (s : State) (e : EngineId) : List Instr :=
  row (s.engines[e].wait == .credit || s.claims.any fun c => c.engine == e.val && s.decisionDue c) (.claimDecision e)

/-- What comes after the words: stalls and resumes, steals, deposits and look-ahead, the lane, and self-checks that fail
(R171). -/
def State.engineAfter (s : State) (e : EngineId) : List Instr :=
  let g := s.engines[e]
  row (g.noWork && s.eff e == .running) (.bufferEmptyStall e) ++ row (s.eff e == .stalled) (.stallResume e)
    ++ row (s.modState == .building && (s.eff e == .running || s.eff e == .parked)) (.stealAttempt e)
    ++ row (!g.ledgerQ.isEmpty) (.deposit e) ++ row (!g.lookReqs.isEmpty) (.lookaheadResult e)
    ++ row (g.routed.isSome && s.tick % 20 == 0) (.laneRun e)
    ++ row (g.st != .fault && g.dupBad) (.takeover [(e, 1)] {} []) ++ row (g.st != .fault && decide (2 ≤ g.missFrames)) (.takeover [(e, 3)] {} [])

/-- The timeouts of an engine. -/
def State.engineEnd (s : State) (e : EngineId) : List Instr :=
  let g := s.engines[e]
  row (g.wait matches .token .. | .seam ..) (.tokenTimeout e) ++ row (g.wait matches .claim _) (.waitBound e)
    ++ row (dueAt s.tick g.readyTimer) (.readyTimeout e) ++ row (dueAt s.tick g.forcedTimer) (.layerEndForced e)

/-- The lane of the engine routed to port p has served its last sample, so the next pair of Q_MPS can enter it
(R116, Table 5.1: one pair a sample period). -/
def State.laneFree (s : State) (p : LaserId) : Bool :=
  match s.engineOf p with
  | some e => s.lanes[(⟨e.val, by have := e.isLt; omega⟩ : LaneId)].sample.isNone
  | none => false

/-- Rows due for a laser port and its link. -/
def State.portDue (s : State) (p : LaserId) : List Instr :=
  let l := s.lasers[p]
  row (s.lpwrRuns p && decide (l.slotNo < s.slotNow p)) (.powerSlot p)
    ++ row (!l.mpsQ.isEmpty && (s.laneFree p || (s.engineOf p).isNone)) (.samplePair p)
    ++ row (linksRun s.modState && l.link == .off) (.linkStartup p)
    ++ row (l.link == .align && decide (64 ≤ l.upstreamGood)) (.linkIdentify p)
    ++ row (l.link == .identify && decide (8 ≤ l.regs.length)) (.linkUp p)
    ++ row (decide (2 ≤ l.hfaultRun)) (.hfaultUnavailable p)
    ++ row (decide (4 ≤ l.upstreamBad) || decide (4 ≤ l.rxerrRun)) (.linkLost p)

/-- The timeouts of a laser port and its link. -/
def State.portEnd (s : State) (p : LaserId) : List Instr :=
  let l := s.lasers[p]
  row (s.anomalyDue p) (.anomalyStart p) ++ row (dueAt s.tick (l.auxBusy.map (·.2.2))) (.auxTimeout p)
    ++ row (dueAt s.tick l.linkTimer) (.startupTimeout p) ++ row (dueAt s.tick l.retryTimer) (.linkRetry p)
    ++ row ((l.link == .up || l.tempAt != 0) && !l.tempStale && decide (l.tempAt + 80000000 ≤ s.tick)) (.headTemperatureStale p)

/-- Rows due for an axis. -/
def State.axisDue (s : State) (a : AxisId) : List Instr :=
  let x := s.axes[a]
  row (dueAt s.tick x.brakeAt) (.brakeRelease a) ++ row (dueAt s.tick x.doneAt) (.enableDone a)
    ++ row (dueAt s.tick x.enaOffAt) (.enaOff a)
    ++ row (x.st == .stopping && s.tick % 1600 == 0) (.stopComplete a)
    ++ row ((x.st == .standstill || x.st == .moving) && s.tick % 1600 == 0) (.inPosition a)
    ++ row (s.nat (axisIx 0x6005 a) 1 != 0 && s.tick % 1600 == 0) (.axisFeedbackLost a)
    ++ (List.finRange 3).flatMap fun w => row (x.swChatter.getLsbD w.val) (.chatterCleared a w)

/-- The timeouts of an axis, a period boundary whose bus voltage nobody has reported (the one measured last stands), and a
switch whose raw level has stood for DebounceTime (R27, R236, R255). -/
def State.axisEnd (s : State) (a : AxisId) : List Instr :=
  let x := s.axes[a]
  row (s.tick % 1600 == 0) (.profilePeriod a x.vbus)
    ++ ((List.finRange 3).flatMap fun w =>
      row (x.swRaw.getLsbD w.val != x.swLevel.getLsbD w.val
        && decide (x.swSince[w] + s.nat (axisIx 0x6007 a) 2 * 80 ≤ s.tick)) (.switchChange a w (x.swRaw.getLsbD w.val)))
    ++ row (dueAt s.tick s.axes[a].edgeTimer) (.standstillTimeout a) ++ row (dueAt s.tick s.axes[a].homeTimer) (.homingTimeout a)

/-- Rows due for a camera port. -/
def State.camDue (s : State) (p : CamId) : List Instr :=
  row (dueAt s.tick s.cams[p].trigUntil) (.exposureEnd p)
    ++ row (s.nat (0x7000 + p.val) 0x0C == 2 && s.tick % 32000 == 0) (.trigPeriod p)

/-- Rows due for a plane (R221). -/
def State.planeDue (s : State) (k : PlaneId) : List Instr :=
  let x := s.planes[k]
  row (x.stale && !x.transparent && decide (x.cfg.staleLimit ≤ x.staleRun)) (.planeTransparent k)

/-- The timeout of a camera port. -/
def State.camEnd (s : State) (p : CamId) : List Instr :=
  row (dueAt s.tick (s.cams[p].frame.map (·.deadline))) (.frameTimeout p)

/-- Rows due for a memory channel. -/
def State.channelDue (s : State) (c : ChanId) : List Instr :=
  let d := s.dram[c]
  row (s.memoryOn c && (decide (0 < d.postponed) || decide (d.lastRefresh + d.intervalTicks ≤ s.tick))) (.refresh c)
    ++ row (s.memoryOn c && decide (d.zqAt + msTicks 128 ≤ s.tick)) (.zqShort c)
    ++ row (decide (8192 ≤ d.refreshes)) (.refreshWindowEnd c)
    ++ row (!d.queue.isEmpty) (.ageRaise c)
    ++ ((d.counters.filter fun x => decide (s.nat 0xC000 4 ≤ x.2.2)).map fun x =>
      .neighbourRefresh c (Fin.ofNat 16 x.1) (BitVec.ofNat 16 x.2.1))
    ++ ((List.finRange 18).flatMap fun v =>
      row (d.marked.isNone && !d.errLines.isEmpty && decide (s.nat 0xC000 6 ≤ s.errorLines c v.val)) (.deviceMarked c v))

/-- Rows due for a session. -/
def State.sessionDue (s : State) (q : Sess) : List Instr :=
  match s.sessions[q] with
  | none => []
  | some x =>
    ((List.finRange 8).flatMap fun i => row (x.subs.any fun u => u.id == i.val && u.last != s.cycleInstant u.period) (.cyclic q i))
      ++ row (decide (1048576 ≤ x.sent)) (.keyUpdate q true) ++ row (decide (1048576 ≤ x.received)) (.keyUpdate q false)

/-- The timeouts of a session. -/
def State.sessionEnd (s : State) (q : Sess) : List Instr :=
  match s.sessions[q] with
  | none => []
  | some x =>
    row (decide (x.lastRecord + msTicks (s.nat 0x1012 3) ≤ s.tick)) (.sessionTimeout q)
      ++ row (x.snap.isOpen && decide (x.snap.openedAt + msTicks (1000 * s.nat 0xB010 9) ≤ s.tick)) (.snapHoldExpiry q)

/-- Rows due for the time counter. -/
def State.timeDue (s : State) : List Instr :=
  row (s.time.status != 0 && decide (s.time.lastSecond < s.time.now / secUnit)) .secondBoundary
    ++ row (s.time.status == 0 && decide (s.time.tickAnchorAt + 80000000 ≤ s.tick)) .tickAnchor
    ++ row (dueAt s.tick s.time.ppsUntil) .ppsEnd
    ++ row (s.tick % 80000 == 0) .oscTrim

/-- Rows due for the build, the contexts and the spare channel. -/
def State.buildDue (s : State) : List Instr :=
  row (s.time.scheduled.isSome && s.tick % 40 == 0) .scheduledStartReached
    ++ row (s.modState == .building) .layerComplete ++ row s.layer.moving .layerStageStart
    ++ row (s.modState == .building && !s.layer.running && s.tick % 40 == 0) .layerStart
    ++ row (decide (freeSlots s.contexts < 16) && !s.contexts.isEmpty) .contextSpill
    ++ row (s.remainders.any fun r => r.token.isSome || r.seamWait.isSome) .heldRemaindersLost
    ++ row s.spare.trimPending.isSome .trimStart ++ row s.spare.forTrim .handBack

/-- The slow lane due in the sample period that begins (R138), with the analogue input sampled last. -/
def State.slowDue (s : State) : List Instr :=
  match slowLane s.tick with
  | some n => row (s.tick % 20 == 0 && linksRun s.modState) (.axisLaneRun n (BitVec.ofInt 16 s.lanes[n].input))
  | none => []

/-- Tiles that the sweep visits at a ms boundary of ledger time (R127). -/
def State.sweepRows (s : State) : List Instr :=
  if (s.tick - s.ledger.zero) % 80000 = 0 then s.sweepDue.map fun t => .ledgerSweep t.1 t.2 else []

/-- Rows due for the rest of the module. -/
def State.restDue (s : State) : List Instr :=
  s.slowDue ++ s.sweepRows ++
  ((List.finRange 20).flatMap fun n => row s.lanes[n].inj.running (.injectionEnd n))
    ++ ((List.finRange 20).flatMap fun n => row s.lanes[n].lost (.feedbackReturned n))
    ++ row (s.capture.state == 2) .captureDone
    ++ row (s.cal.running && (s.cal.abort.isSome || s.cal.procedure == 0x0B)) .calAborted
    ++ row (!s.evtQ.isEmpty) .eventRecordTaken
    ++ row (s.mirrorNext != 0 && decide (s.mirrorNext ≤ s.nv.newest)) .mirrorWrite
    ++ row (choyrServed s.modState && decide (s.announceAt ≤ s.tick)) .announceSend
    ++ row (s.modState == .thermalOff) .thermalRestart

/-- Timeouts of the rest of the module. -/
def State.restEnd (s : State) : List Instr :=
  row (dueAt s.tick s.time.syncTimer) .syncLoss ++ row (dueAt s.tick s.cal.readingTimer) .readingTimeout
    ++ row (s.faults.any s.faultLost) .faultTimeout
    ++ ((s.nodes.filter fun (x : Node) => decide (x.heardAt + msTicks 10000 ≤ s.tick)).map fun (x : Node) => .nodeUnheard (BitVec.ofNat 14 x.id))
    ++ row (dueAt s.tick (s.layer.hostLossTimer.map (· + msTicks 10000))) .hostLoss
    ++ ((s.sec.lockouts.filter fun x => decide (x.2 ≤ s.tick)).map fun x => .lockoutExpiry (BitVec.ofNat 128 x.1))
    ++ row (s.supply.level == 2) .throttleStage2

/-- The time-driven rows due at the present tick (R56, R57): words and what ends their waits come before UPDATE, which
generates the next set-points. While a RESET waits for the resume copier nothing else goes on (row 109). -/
def State.due (s : State) : List Instr :=
  if s.supply.resetHeld.isSome then []
  else
    (List.finRange 12).flatMap s.portDue ++ (List.finRange 13).flatMap s.engineDue
      ++ (List.finRange 13).flatMap s.claimDue ++ (List.finRange 13).flatMap s.wordDue
      ++ row (s.spare.takeoverAt.isSome && s.tick % 40 == 0) .standinRoute ++ row (s.tick % 40 == 0) .update
      ++ (List.finRange 13).flatMap s.engineAfter
      ++ s.buildDue ++ (List.finRange 4).flatMap s.axisDue ++ (List.finRange 5).flatMap s.camDue
      ++ (List.finRange 8).flatMap s.planeDue
      ++ (List.finRange 2).flatMap s.channelDue ++ s.timeDue ++ (List.finRange 16).flatMap s.sessionDue ++ s.restDue

/-- The timeouts that expire at the end of the present tick: what they wait for has had its turn (R27). A scan boundary
that nobody has reported column failures for passes without one (R229, R232), and so does the scrub of a line (R313). -/
def State.dueEnd (s : State) : List Instr :=
  row (dueAt s.tick s.supply.copierUntil) .resumeCopy
    ++ if s.supply.resetHeld.isSome then []
      else
        (List.finRange 12).flatMap s.portEnd ++ (List.finRange 13).flatMap s.engineEnd
          ++ (List.finRange 4).flatMap s.axisEnd ++ (List.finRange 5).flatMap s.camEnd
          ++ row (s.tick % 32000 == 0) (.scanBoundary [])
          ++ ((List.finRange 2).flatMap fun c =>
            row (s.memoryOn c && decide (s.dram[c].scrubAt + s.scrubTicks ≤ s.tick)) (.patrolScrub c []))
          ++ (List.finRange 16).flatMap s.sessionEnd ++ s.restEnd

/-- No command waits (row 1): the timeouts of the tick end it, or the next period of TICK_CLK begins; without the clock
nothing passes. -/
def State.tickPeriod (s : State) : State :=
  if !s.clockRuns then s
  else if s.tickEnd then { s with pending := s.dueEnd, tickEnd := false }
  else
    let s := (s.closeTick.countTick).tickWork
    { s with pending := s.due, tickEnd := true }

end Sys2Proof.Machine
end

