-- ==== Sys2Proof/Safety.lean ====
section
/-!
DEFINITION. What claims are stated in: an access that the host is granted, outputs that are off, the canonical form of
the state's lists, and entries that only a host changes.
-/
namespace Sys2Proof.Machine

/-- A write of v to an entry by session q reaches the entry's own behaviour: Choyr is served, the entry exists, and the
checks of R278 that come before the value pass. -/
def State.admits (s : State) (q : Sess) (index sub : Nat) (v : Int) : Bool :=
  s.served q &&
    match s.sessions[q], findEntry index sub with
    | some x, some d =>
      ((s.touch q).accessRefusal x.role index sub d.acc true v).isNone && !(d.stored && s.profileBusy == 1)
        && !(s.recovery && index / 0x10 != 0xA03 && !(index == 0x2001 && (v == 7 || v == 10)))
    | _, _ => false

/-- The state in which a request of session q is carried out: its record noted and counted (R266, R364). -/
def State.noted (s : State) (q : Sess) : State :=
  (s.touch q).modSession q fun x => { x with received := x.received + 1 }

/-- A request of session q on a message: of a type, well formed with these elements, and with a new Sequence. -/
def State.asks (s : State) (q : Sess) (m : Bytes) (type : Nat) (l : List (Nat × Bytes)) : Prop :=
  s.served q = true ∧ s.openMessage m = .ok l ∧ leAt m 4 1 = type ∧
    ∃ x, s.sessions[q] = some x ∧ assocGet (leAt m 0x0C 4) x.responses = none

/-- The last octets sent to session q are an answer of a type, with these elements, to message m. -/
def State.answered (s : State) (q : Sess) (m : Bytes) (type : Nat) (elements : Bytes) : Prop :=
  s.sent.head? = some (sessionKey q, message (answerMinor m) type (s.nat 0x1010 1) (leAt m 6 2) (leAt m 0x0C 4) elements)

/-- Every laser output is off: LGATE low, power 0, EMIT_EN off (R84). -/
def State.dark (s : State) : Bool :=
  s.lasers.toList.all fun l => !l.lgate && l.lpwr == 0 && !l.emitEn

/-- Keys of a list strictly rise from `lo` on. -/
def keysFrom {α : Type} (lo : Nat) : List (Nat × α) → Bool
  | [] => true
  | (k, _) :: t => decide (lo ≤ k) && keysFrom (k + 1) t

/-- The dictionary lists each entry once, in order, and none at its default. -/
def dictWf (d : List (Nat × Int)) : Bool := keysFrom 0 d && d.all fun x => x.2 != defaultOf x.1

/-- The lists of the state are in their canonical form. -/
def State.canonical (s : State) : Bool := Memory.wf s.mem && dictWf s.dict && keysFrom 0 s.blobs

/-- The entry of a key is one that a host writes; every other key holds a status or a counter of the module. -/
def hostKey (k : Nat) : Bool := !((findEntry (k / 256) (k % 256)).any fun d => d.acc == .ro)

/-- The command has its effect: exec answers a next state, and P holds of it. -/
def Answers (i : Instr) (s : State) (P : State → Prop) : Prop := ∃ t, exec i s = .next t ∧ P t

/-- Engine e executes words, w is the word under execution, and no break lies before it (R160). -/
def State.wordAt (s : State) (e : EngineId) (w : VWord) : Bool :=
  s.executing e && s.engines[e].word == some w && s.engines[e].breakTo.isNone

/-- The word after the one under execution is the next to be executed: it is in the same block, and neither the end of
a reorder group nor the start of one of its members. -/
def State.goesOn (s : State) (e : EngineId) : Bool :=
  decide (s.engines[e].wordOff + 1 < s.engines[e].words.length) &&
    match s.engines[e].group with
    | none => true
    | some gr => gr.endOffset != s.engines[e].wordOff + 1 && !gr.members.contains (s.engines[e].wordOff + 1)

/-- The module has gone from its state in s to st (Table 1.6, R25): PreviousState, TransitionCause, StateEntryTick and
record 0x2101 say so. -/
def Transition (s t : State) (st : ModState) (cause : Nat) : Prop :=
  t.modState = st ∧ t.prevState = s.modState ∧ t.cause = cause ∧ t.entryTick = s.tick ∧
    ∃ r ∈ t.evtQ ++ t.evtWait, r.type = 0x2101 ∧ r.body = [(s.modState.code : Int), (st.code : Int), (cause : Int)]

/-- A record of a type stands in Q_EVT or waits for a credit on it (R14, R331). -/
abbrev Recorded (t : State) (type : Nat) : Prop := ∃ r ∈ t.evtQ ++ t.evtWait, r.type = type

/-- No trigger that goes before one of a rank waits in the queue, and so coincides with the command (R26). -/
def State.alone (s : State) (rank : Nat) : Bool := s.pending.all fun c => decide (rank ≤ triggerRank c)

/-- A host's row was carried out, or refused, with a status: the answer, and for a command of StateCommand also
CommandStatus. -/
def Commanded (t : State) (status : Nat) : Prop := t.answer = status ∧ t.commandStatus = status

/-- Every entry that a host writes has in t the value it has in s. -/
def SettingsKept (s t : State) : Prop := ∀ k, hostKey k = true → assocGet k t.dict = assocGet k s.dict

end Sys2Proof.Machine
end

