-- ==== Sys2Proof/Certificates/Slice0/Obligations.lean ====
section
/-!
DEFINITION. The statements for the provers. Each docstring names the rules of spec/ that its clauses come from; a clause
that rests on a choice of the model names the log entry. Answers i s P says that exec i s is a next state, and that P
holds of it.
-/

open Sys2Proof Sys2Proof.Machine

/-- What reset leaves, as far as the spec says it (R25, R81, R238). Working memory reading 0 where nothing is written and
entries without a stated reset value at the default of their row are the choice of log entry 2. -/
def Obligations.ResetState : Prop :=
  State.reset.modState = .reset ∧ State.reset.tick = 0 ∧ State.reset.dark = true ∧ State.reset.canonical = true ∧
  State.reset.mem = [] ∧ (∀ a, memRead State.reset.mem a = 0) ∧
  (∀ e : EngineId, State.reset.engines[e].st = if e.val = 12 then .spare else .idle) ∧
  (∀ p : LaserId, State.reset.lasers[p].link = .off ∧ State.reset.lasers[p].available = false) ∧
  (∀ a : AxisId, State.reset.axes[a].st = .disabled ∧ State.reset.axes[a].enaOn = false ∧
    State.reset.axes[a].brakeOn = true) ∧
  (∀ k : TokenId, State.reset.tokens[k].count = 0) ∧ (∀ q : Sess, State.reset.sessions[q] = none) ∧
  State.reset.time.status = 0 ∧ State.reset.contexts = [] ∧
  (∀ i j, State.reset.val i j = defaultOf (entryKey i j))

/-- On a waiting command, a step is its meaning on the state with the queue's rest. -/
def Obligations.StepRunsFront : Prop :=
  ∀ (s : State) (c : Instr) (rest : List Instr), s.pending = c :: rest → step s = exec c { s with pending := rest }

/-- On an empty queue a step is one period of TICK_CLK, the model's choice of log entry 1: without the clock nothing
changes; with it the tick counter and the hour counter count, and the rows queued are those due. -/
def Obligations.TickPeriod : Prop :=
  ∀ (s : State), s.pending = [] →
    (s.clockRuns = false → step s = .next s) ∧
    (s.clockRuns = true → ∃ t, step s = .next t ∧ t.tick = s.tick + 1 ∧
      (s.nv.hourTicks + 1 < hourUnit → t.nv.hourTicks = s.nv.hourTicks + 1 ∧
        t.nv.operatingHours = s.nv.operatingHours) ∧
      (hourUnit ≤ s.nv.hourTicks + 1 → t.nv.hourTicks = 0 ∧ t.nv.operatingHours = s.nv.operatingHours + 1) ∧
      ((s.tick + 1) % 40 = 0 → .update ∈ t.pending) ∧
      ∀ a : AxisId, ∀ d, s.axes[a].doneAt = some d → d ≤ s.tick + 1 → .enableDone a ∈ t.pending)

/-- The 17 vector words of Table 2.4: a word with its fields in their ranges is what its 64 bits decode to, and 64 bits
that decode are the encoding of the word, whose fields are in their ranges. -/
def Obligations.WordCodec : Prop :=
  (∀ w, wordValid w = true → encodeWord w < 2 ^ 64 ∧ decodeWord (encodeWord w) = .ok w) ∧
  (∀ n w, n < 2 ^ 64 → decodeWord n = .ok w → wordValid w = true ∧ encodeWord w = n)

/-- Working memory keeps its canonical form over every step (R306). -/
def Obligations.StepKeepsMemory : Prop :=
  ∀ (s t : State), Memory.wf s.mem = true → step s = .next t → Memory.wf t.mem = true

/-- Each parameter word sets its own parameters of its engine (R34); where the next word goes on, nothing else changes but
the word offset. -/
def Obligations.ParameterWords : Prop :=
  ∀ (s : State) (e : EngineId),
    (∀ v, s.wordAt e (.setMarkSpeed v) = true → Answers (.setMarkSpeed e) s fun t =>
      t.engines[e].par.markSpeed = v ∧ (s.goesOn e = true →
        t = s.modEngine e fun g => { g with par := { g.par with markSpeed := v }, wordOff := g.wordOff + 1 })) ∧
    (∀ v a j st, s.wordAt e (.setJumpLimits v a j st) = true → Answers (.setJumpLimits e) s fun t =>
      (t.engines[e].par.jumpSpeed = v ∧ t.engines[e].par.jumpAccel = a ∧ t.engines[e].par.jumpJerk = j ∧
        t.engines[e].par.settle = st) ∧ (s.goesOn e = true →
        t = s.modEngine e fun g =>
          { g with par := { g.par with jumpSpeed := v, jumpAccel := a, jumpJerk := j, settle := st }
                   wordOff := g.wordOff + 1 })) ∧
    (∀ p, s.wordAt e (.setPower p) = true → Answers (.setPower e) s fun t =>
      t.engines[e].par.power = p ∧ (s.goesOn e = true →
        t = s.modEngine e fun g => { g with par := { g.par with power := p }, wordOff := g.wordOff + 1 })) ∧
    (∀ z, s.wordAt e (.setFocus z) = true → Answers (.setFocus e) s fun t =>
      t.engines[e].par.focus = z ∧ (s.goesOn e = true →
        t = s.modEngine e fun g => { g with par := { g.par with focus := z }, wordOff := g.wordOff + 1 })) ∧
    (∀ on off md, s.wordAt e (.setLaserDelays on off md) = true → Answers (.setLaserDelays e) s fun t =>
      (t.engines[e].par.onDelay = on ∧ t.engines[e].par.offDelay = off ∧ t.engines[e].par.markDelay = md) ∧
        (s.goesOn e = true →
        t = s.modEngine e fun g =>
          { g with par := { g.par with onDelay := on, offDelay := off, markDelay := md }, wordOff := g.wordOff + 1 })) ∧
    (∀ a d sc, s.wordAt e (.setCorner a d sc) = true → Answers (.setCorner e) s fun t =>
      (t.engines[e].par.cornerAngle = a ∧ t.engines[e].par.cornerDelay = d ∧ t.engines[e].par.cornerScale = sc) ∧
        (s.goesOn e = true →
        t = s.modEngine e fun g =>
          { g with par := { g.par with cornerAngle := a, cornerDelay := d, cornerScale := sc }
                   wordOff := g.wordOff + 1 })) ∧
    (∀ m sp lo hi, s.wordAt e (.setpoint m sp lo hi) = true → Answers (.setpoint e) s fun t =>
      (t.engines[e].par.mode = (if m = 0 then s.engines[e].par.mode else m) ∧ t.engines[e].par.setPoint = sp ∧
        t.engines[e].par.bandLow = lo ∧ t.engines[e].par.bandHigh = hi) ∧ (s.goesOn e = true →
        t = s.modEngine e fun g =>
          { g with par := { g.par with mode := (if m = 0 then g.par.mode else m), setPoint := sp, bandLow := lo,
                                       bandHigh := hi }
                   wordOff := g.wordOff + 1 })) ∧
    (∀ p f, s.wordAt e (.label p f) = true → s.goesOn e = true → Answers (.label e) s fun t =>
        t = s.modEngine e fun g =>
          { g with par := { g.par with partId := p, featureTag := f }, wordOff := g.wordOff + 1 })

/-- The motion words (R36, R37, R39, R62, R93): a JUMP that leads to no exposure unit, and a MARK within a segment, end at
their coordinates; a unit ahead has its claim posted first,
  with the rectangle of its vertices; a MARK whose claim is granted opens
a segment, its gate rising where Power is not 0; a DWELL holds the position, gate off for whole updates. -/
def Obligations.MotionWords : Prop :=
  ∀ (s : State) (e : EngineId),
    (∀ st x y, s.wordAt e (.jump st x y) = true → s.engines[e].parkAtPoint = false →
      unitAhead (s.engines[e].rest.drop 1) = none → Answers (.jump e) s fun t =>
        t.engines[e].posX = x * 65536 ∧ t.engines[e].posY = y * 65536) ∧
    (∀ st x y ws, s.wordAt e (.jump st x y) = true → s.engines[e].parkAtPoint = false →
      s.engines[e].inSegment = false → s.engines[e].claimId = none → s.claimCredit e = true →
      unitAhead (s.engines[e].rest.drop 1) = some ws →
      Answers (.jump e) s fun t =>
        t.engines[e].posX = s.engines[e].posX ∧ t.engines[e].wordOff = s.engines[e].wordOff ∧
        ∃ c ∈ t.claims, t.engines[e].claimId = some c.id ∧ c.engine = e.val ∧ c.rect = unitRect x y ws) ∧
    (∀ nc sm am x y, s.wordAt e (.mark nc sm am x y) = true → s.engines[e].stopInUnit = false →
      s.engines[e].inSegment = true → Answers (.mark e) s fun t =>
        t.engines[e].posX = x * 65536 ∧ t.engines[e].posY = y * 65536) ∧
    (∀ nc sm am x y, s.wordAt e (.mark nc sm am x y) = true → s.engines[e].stopInUnit = false →
      s.engines[e].inSegment = false → s.engines[e].claimId = none → s.claimCredit e = true → Answers (.mark e) s fun t =>
        t.engines[e].posX = s.engines[e].posX ∧ t.engines[e].edges = s.engines[e].edges ∧
        t.engines[e].claimId.isSome = true) ∧
    (∀ nc am x y, s.wordAt e (.mark nc false am x y) = true → s.engines[e].stopInUnit = false →
      s.engines[e].inSegment = false → s.engines[e].claimId.isSome = true → s.engines[e].claimGranted = true →
      s.goesOn e = true → Answers (.mark e) s fun t =>
        t.engines[e].inSegment = true ∧ t.engines[e].posX = x * 65536 ∧ t.engines[e].posY = y * 65536 ∧
        (s.engines[e].par.power ≠ 0 → (t.engines[e].edges.getLast?.map (·.rise)) = some true) ∧
        (s.engines[e].par.power = 0 → t.engines[e].edges = s.engines[e].edges)) ∧
    (∀ d, s.wordAt e (.dwell false d) = true → s.engines[e].parkAtPoint = false → s.engines[e].inSegment = false →
      s.engines[e].backTo = none → s.goesOn e = true → Answers (.dwell e) s fun t =>
        ∃ m, t.engines[e].plan = s.engines[e].plan ++ [m] ∧ m.phase = .dwellOff ∧ m.dur = upd * ((d + 319) / 320) ∧
          t.engines[e].planEnd = m.t0 + m.dur ∧ upd ∣ m.t0 ∧ s.engines[e].planEnd ≤ m.t0 ∧
          m.x1 = s.engines[e].posX ∧ m.y1 = s.engines[e].posY) ∧
    (∀ d, s.wordAt e (.dwell true d) = true → s.engines[e].inSegment = true → s.goesOn e = true →
      Answers (.dwell e) s fun t =>
        ∃ m, t.engines[e].plan = s.engines[e].plan ++ [m] ∧ m.phase = .dwellOn ∧ m.t0 = s.engines[e].planEnd ∧
          m.dur = upd / 320 * d ∧ m.x1 = s.engines[e].posX ∧ m.y1 = s.engines[e].posY) ∧
    (∀ d, s.wordAt e (.dwell true d) = true → s.engines[e].inSegment = false → s.engines[e].claimId = none →
      s.claimCredit e = true → Answers (.dwell e) s fun t =>
        t.engines[e].edges = s.engines[e].edges ∧ t.engines[e].claimId.isSome = true) ∧
    (∀ d, s.wordAt e (.dwell true d) = true → s.engines[e].inSegment = false → s.engines[e].claimId.isSome = true →
      s.engines[e].claimGranted = true → s.goesOn e = true → Answers (.dwell e) s fun t =>
        t.engines[e].claimId = none ∧ t.engines[e].inSegment = false ∧
        (t.engines[e].plan.getLast?.map (·.phase)) = some .dwellOn)

/-- Tokens and seams (R43, R44, R108, R112). -/
def Obligations.SyncWords : Prop :=
  ∀ (s : State) (e : EngineId),
    (∀ (k : TokenId) c, s.wordAt e (.token false k.val c) = true → Answers (.tokenSignal e) s fun t =>
      t.tokens[k].count = min (s.tokens[k].count + 1) 65535 ∧ t.tokens[k].changed = s.tick ∧
      ∀ j, j ≠ k → t.tokens[j] = s.tokens[j]) ∧
    (∀ (k : TokenId) n, s.wordAt e (.token true k.val n) = true → n ≤ s.tokens[k].seen s.tick →
      s.goesOn e = true → Answers (.tokenWait e) s fun t =>
        t = s.modEngine e fun g => { g with wordOff := g.wordOff + 1 }) ∧
    (∀ (k : TokenId) n, s.wordAt e (.token true k.val n) = true → s.tokens[k].seen s.tick < n →
      Answers (.tokenWait e) s fun t =>
        t.eff e = .yielding ∧ t.engines[e].wait = .token k.val n s.tick ∧
        t.engines[e].wordOff = s.engines[e].wordOff ∧ t.tokens = s.tokens) ∧
    (∀ (k : TokenId) n since, s.engines[e].wait = .token k.val n since → n ≤ s.tokens[k].seen s.tick →
      Answers (.tokenWaitSatisfied e) s fun t =>
        t.eff e = .running ∧ t.engines[e].wait = .none ∧ t.tokens = s.tokens ∧
        (s.goesOn e = true → t.engines[e].wordOff = s.engines[e].wordOff + 1)) ∧
    (∀ inc k ov id, s.wordAt e (.seam inc k ov id) = true → s.goesOn e = true → Answers (.seam e) s fun t =>
      t = s.modEngine e fun g =>
        { g with seam := some { incoming := inc, token := k, overlap := ov, seamId := id }, wordOff := g.wordOff + 1 }) ∧
    (∀ (k : TokenId) id since (h : SeamHalf), s.engines[e].wait = .seam k.val id since → s.engines[e].seam = some h →
      h.token = k.val → (∀ i : EngineId, s.engines[i].seamDue = []) →
      s.seamIn k.val h.seamId = true →
      Answers (.seamWaitEnd e) s fun t =>
        t.tokens[k].mailbox = s.tokens[k].mailbox.eraseP (fun m => m.1 == h.seamId) ∧
        t.engines[e].seam = some { h with waited := true } ∧ t.engines[e].wait = .none ∧
        (s.eff e = .yielding → t.eff e = .running))

/-- Groups and PREEMPT (R41, R42, R101). -/
def Obligations.GroupWords : Prop :=
  ∀ (s : State) (e : EngineId),
    (∀ id, s.wordAt e (.group true id) = true → s.engines[e].inSegment = false → s.engines[e].parkAtPoint = false →
      Answers (.groupBegin e) s fun t => ∃ gr, t.engines[e].group = some gr ∧ gr.groupId = id ∧ gr.done = [] ∧
        gr.current = 0 ∧ t.engines[e].wordOff = gr.members.getD 0 gr.endOffset ∧
        (∀ i ∈ gr.members, s.engines[e].wordOff < i ∧ i < gr.endOffset ∧
          ∃ st x y, s.engines[e].words[i]? = some (.jump st x y)) ∧
        (∀ w, s.engines[e].words[gr.endOffset]? = some w → w = .group false id)) ∧
    (∀ id, s.wordAt e (.group false id) = true → s.engines[e].inSegment = false → s.engines[e].parkAtPoint = false →
      Answers (.groupEnd e) s fun t => t.engines[e].group = none ∧
        (s.engines[e].wordOff + 1 < s.engines[e].words.length → t.engines[e].wordOff = s.engines[e].wordOff + 1)) ∧
    (s.wordAt e .preempt = true → s.engines[e].inSegment = true → s.engines[e].parkAtPoint = false → s.goesOn e = true →
      Answers (.preempt e) s fun t =>
        t = s.modEngine e fun g => { g with ppOffset := g.wordOff + 1, wordOff := g.wordOff + 1 }) ∧
    (s.wordAt e .preempt = true → s.engines[e].inSegment = false → s.engines[e].parkAtPoint = false → s.goesOn e = true →
      Answers (.preempt e) s fun t =>
        t = s.modEngine e fun g =>
          { g with ppOffset := g.wordOff + 1, wordOff := g.wordOff + 1, gateSincePoint := false, atPoint := true }) ∧
    (s.wordAt e .preempt = true → s.engines[e].parkAtPoint = true → Answers (.preempt e) s fun t => t.eff e = .parked)

/-- LAYER_END and END at their position instant, with nothing held (R45). In a block whose context another engine
runs they end the layer work of that context, and the engine keeps its own (R102, R106, R186; log entry 120). -/
def Obligations.EndingWords : Prop :=
  (∀ (s : State) (e : EngineId) (c : CtxId), s.engines[e].inSegment = false → s.atInstant e = true →
      s.engines[e].buf.head?.map (·.stolen) = some false →
      s.engines[e].ctx = some c → (assocGet c.val s.contexts).isSome = true → keysFrom 0 s.contexts = true →
      (∀ n, s.wordAt e (.layerEnd n) = true → s.holdLayerEnd e = none → Answers (.layerEnd e) s fun t =>
        (assocGet c.val t.contexts).map (·.st) = some .loaded ∧ t.engines[e].ctx ≠ some c ∧
        ((∀ x ∈ s.contexts, x.1 = c.val ∨ x.2.owner ≠ e.val) → (∀ r ∈ s.remainders, r.engine ≠ e.val) →
          (t.eff e = .idle ∨ t.eff e = .armed) ∧ t.engines[e].layerDone = true)) ∧
      (s.wordAt e .endWord = true → s.holdLayerEnd e = none → Answers (.endWord e) s fun t =>
        (assocGet c.val t.contexts).map (·.st) = some .done ∧ t.engines[e].ctx ≠ some c ∧
        ((∀ x ∈ s.contexts, x.1 = c.val ∨ x.2.owner ≠ e.val) → (∀ r ∈ s.remainders, r.engine ≠ e.val) →
          (t.eff e = .idle ∨ t.eff e = .armed) ∧ t.engines[e].layerDone = true))) ∧
  (∀ (s : State) (e : EngineId) (b : Block), s.engines[e].inSegment = false → s.atInstant e = true →
      s.engines[e].buf.head? = some b → b.stolen = true → (assocGet b.ctx s.contexts).isSome = true →
      keysFrom 0 s.contexts = true →
      (∀ n, s.wordAt e (.layerEnd n) = true → Answers (.layerEnd e) s fun t =>
        (assocGet b.ctx t.contexts).map (·.st) = some .loaded ∧ t.engines[e].ctx = s.engines[e].ctx ∧ t.eff e = s.eff e) ∧
      (s.wordAt e .endWord = true → Answers (.endWord e) s fun t =>
        (assocGet b.ctx t.contexts).map (·.st) = some .done ∧ t.engines[e].ctx = s.engines[e].ctx ∧ t.eff e = s.eff e))

/-- The update grid (R56, R63, R66, R78, R80). -/
def Obligations.UpdateGrid : Prop :=
  ∀ (s : State),
    (s.tick % 40 = 0 → Answers .update s fun t => ∀ p : LaserId,
      t.lasers[p].lgate = (match s.engineOf p with
        | some e => s.engines[e].levelAt (8 * s.tick) && !s.portHeld p
        | none => false) ∧
      t.lasers[p].txSeq = (if s.lasers[p].link = .off ∨ s.lasers[p].link = .idle then s.lasers[p].txSeq
        else (s.lasers[p].txSeq + 1) % 256)) ∧
    (s.tick % 40 ≠ 0 → exec .update s = .next s) ∧
    (∀ p e, s.engineOf p = some e → s.lpwrRuns p = true → s.lasers[p].slotNo < s.slotNow p →
      Answers (.powerSlot p) s fun t =>
        t.lasers[p].slotNo = s.slotNow p ∧ t.lasers[p].lpwrSeq = (s.lasers[p].lpwrSeq + 1) % 4 ∧
        (s.portHeld p = true → t.lasers[p].lpwr = 0) ∧
        (s.portHeld p = false → s.engines[e].onTime (160 * s.slotNow p + s.alignOf p) (160 * s.slotNow p + s.alignOf p + 160) ≤ 0 →
          (s.emitting = false → t.lasers[p].lpwr = 0) ∧ (s.eff e ≠ .running → s.eff e ≠ .yielding →
            t.lasers[p].lpwr = 0)) ∧
        (∀ o, o ≠ p → t.lasers[o] = s.lasers[o]))

/-- Scanner links (R72, R73, R76, R77): start-up, alignment, identification, loss, retry, and LinkEnable.
Host commands to a link and to the registers of a head (R75, R76, Table 3.10). -/
def Obligations.LinkRows : Prop :=
  (∀ (s : State) (p : LaserId),
      (s.lasers[p].link ≠ .off → s.lasers[p].link ≠ .idle → Answers (.upstreamFrame p none) s fun t =>
        t.lasers[p].upstreamBad = s.lasers[p].upstreamBad + 1 ∧ t.lasers[p].upstreamGood = 0 ∧
        t.lasers[p].link = s.lasers[p].link) ∧
      (∀ f : BitVec 160, s.lasers[p].link ≠ .off → s.lasers[p].link ≠ .idle → crcOk f.toNat = true →
        Answers (.upstreamFrame p (some f)) s fun t =>
          t.lasers[p].upstreamGood = s.lasers[p].upstreamGood + 1 ∧ t.lasers[p].upstreamBad = 0 ∧
          t.lasers[p].actX = signed 24 (field f.toNat 95 72) ∧ t.lasers[p].actY = signed 24 (field f.toNat 119 96) ∧
          t.lasers[p].hfaultRun = (if bitOf f.toNat 120 then s.lasers[p].hfaultRun + 1 else 0)) ∧
      (linksRun s.modState = true → s.lasers[p].link = .off → s.nat (0x4008 + 0x100 * p.val) 1 = 1 →
        Answers (.linkStartup p) s fun t => t.lasers[p].link = .idle ∧
          t.lasers[p].linkTimer = some (s.tick + 80000 * s.nat (0x4008 + 0x100 * p.val) 2)) ∧
      (∀ n ph ns, s.lasers[p].link = .idle → s.lasers[p].linkTimer.isSome = true → 256 ≤ n →
        Answers (.linkAlign p n ph ns) s fun t => t.lasers[p].link = .align ∧ t.lasers[p].roundTrip = ns ∧
          t.val (0x5100 + p.val) 1 = min ns 65535) ∧
      (s.lasers[p].link = .align → 64 ≤ s.lasers[p].upstreamGood → Answers (.linkIdentify p) s fun t =>
        t.lasers[p].link = .identify ∧ t.lasers[p].auxOut = some (1, 0, 0) ∧ t.lasers[p].regs = [] ∧
        t.lasers[p].auxBusy = some (0, false, s.tick + 160)) ∧
      (s.lasers[p].link = .identify → s.lasers[p].mismatch = false → 8 ≤ s.lasers[p].regs.length →
        s.linkMatches p = true → Answers (.linkUp p) s fun t => t.lasers[p].link = .up ∧ t.lasers[p].linkTimer = none ∧
          t.lasers[p].loopReady = decide (s.lasers[p].roundTrip ≤ 600)) ∧
      (s.lasers[p].link = .identify → s.lasers[p].mismatch = false → 8 ≤ s.lasers[p].regs.length →
        s.linkMatches p = false → Answers (.linkUp p) s fun t => t.lasers[p].link = .identify ∧
          t.lasers[p].mismatch = true ∧ t.lasers[p].linkTimer = none) ∧
      (∀ d, s.lasers[p].linkTimer = some d → d ≤ s.tick → Answers (.startupTimeout p) s fun t =>
        t.lasers[p].link = .idle ∧ t.lasers[p].linkTimer = none ∧ t.lasers[p].retryTimer = some (s.tick + 80000000)) ∧
      (∀ d, s.lasers[p].retryTimer = some d → d ≤ s.tick → linksRun s.modState = true → Answers (.linkRetry p) s fun t =>
        t.lasers[p].link = .idle ∧ t.lasers[p].retryTimer = none ∧
        t.lasers[p].linkTimer = some (s.tick + 80000 * s.nat (0x4008 + 0x100 * p.val) 2)) ∧
      (s.lasers[p].link = .up → 4 ≤ s.lasers[p].upstreamBad ∨ 4 ≤ s.lasers[p].rxerrRun → Answers (.linkLost p) s fun t =>
        t.lasers[p].link = .idle ∧ t.lasers[p].available = false ∧ t.lasers[p].upstreamGood = 0) ∧
      (2 ≤ s.lasers[p].hfaultRun → Answers (.hfaultUnavailable p) s fun t =>
        t.lasers[p].withdrawn = true ∧ t.lasers[p].available = false)) ∧
  (∀ (s : State) (q : Sess) (p : LaserId),
      (s.admits q (0x4008 + 0x100 * p.val) 1 0 = true → Answers (.linkEnableWrite q p 0) s fun t =>
        t.answer = 0 ∧ t.lasers[p].link = .off ∧ t.lasers[p].available = false ∧ t.nat (0x4008 + 0x100 * p.val) 1 = 0) ∧
      (s.admits q (0x4008 + 0x100 * p.val) 1 1 = true → s.nat (0x4008 + 0x100 * p.val) 1 = 0 →
        linksRun s.modState = true → Answers (.linkEnableWrite q p 1) s fun t =>
          t.answer = 0 ∧ t.lasers[p].link = .idle ∧ t.nat (0x4008 + 0x100 * p.val) 1 = 1) ∧
      (∀ v : Byte, 1 < v.toNat → s.admits q (0x4008 + 0x100 * p.val) 1 v.toNat = true →
        Answers (.linkEnableWrite q p v) s fun t => t.answer = 0x0201 ∧ t.lasers = s.lasers) ∧
      (∀ addr : BitVec 14, s.admits q (0x400A + 0x100 * p.val) 1 ((2 ^ 30 + addr.toNat * 2 ^ 16 : Nat) : Int) = true →
        s.lasers[p].auxBusy = none → s.lasers[p].link = .up → Answers (.auxRead q p addr) s fun t =>
          t.answer = 0 ∧ t.lasers[p].auxOut = some (1, addr.toNat, 0) ∧
          t.lasers[p].auxBusy = some (addr.toNat, false, s.tick + 160)) ∧
      (∀ (addr : BitVec 14) (d : BitVec 16),
        s.admits q (0x400A + 0x100 * p.val) 1 ((2 ^ 31 + addr.toNat * 2 ^ 16 + d.toNat : Nat) : Int) = true →
        s.lasers[p].auxBusy = none → s.lasers[p].link = .up → Answers (.auxWrite q p addr d) s fun t =>
          t.answer = 0 ∧ t.lasers[p].auxOut = some (2, addr.toNat, d.toNat) ∧
          t.lasers[p].auxBusy = some (addr.toNat, true, s.tick + 160)) ∧
      (∀ addr : BitVec 14, s.admits q (0x400A + 0x100 * p.val) 1 ((2 ^ 30 + addr.toNat * 2 ^ 16 : Nat) : Int) = true →
        s.lasers[p].auxBusy.isSome = true → Answers (.auxRead q p addr) s fun t =>
          t.answer = 0x0301 ∧ t.lasers = s.lasers) ∧
      (∀ d : BitVec 16, s.lasers[p].auxBusy.isSome = true → s.lasers[p].link ≠ .identify →
        Answers (.auxResponse p d) s fun t =>
          t.lasers[p].auxBusy = none ∧ t.nat (0x400A + 0x100 * p.val) 2 = 2 ^ 31 + d.toNat) ∧
      (∀ a w d, s.lasers[p].auxBusy = some (a, w, d) → d ≤ s.tick → s.lasers[p].link ≠ .identify →
        Answers (.auxTimeout p) s fun t =>
          t.lasers[p].auxBusy = none ∧ t.nat (0x400A + 0x100 * p.val) 2 = 2 ^ 30) ∧
      (s.lasers[p].link = .up → s.lasers[p].tempStale = false → s.lasers[p].tempAt + 80000000 ≤ s.tick →
        Answers (.headTemperatureStale p) s fun t =>
          t.lasers[p].tempStale = true ∧ t.lasers[p].tHeadNum = s.lasers[p].tHeadNum ∧
          t.lasers[p].tHeadDen = s.lasers[p].tHeadDen))

/-- Availability and SAFETY_OK (R83, R84, R85, R86). -/
def Obligations.LaserRows : Prop :=
  ∀ (s : State) (p : LaserId),
    (∀ r a, (r && a) = false → Answers (.laserUnavailable p r a) s fun t =>
      t.lasers[p].available = false ∧ t.lasers[p].readyHigh = r ∧ t.lasers[p].alarmHigh = a ∧
      (∀ e, s.lasers[p].available = true → s.engineOf p = some e → s.eff e = .running ∨ s.eff e = .yielding →
        t.eff e = .stalled ∧ t.engines[e].stallLaser = true)) ∧
    (∀ n, s.lasers[p].available = false → s.lasers[p].link = .up → s.lasers[p].withdrawn = false →
      s.lasers[p].emitMismatch < 3 → 800000 ≤ n → s.lasers[p].clearSince + 800000 ≤ s.tick →
      Answers (.laserAvailable p n) s fun t => t.lasers[p].available = true) ∧
    (Answers (.emitReadback p s.lasers[p].emitEn) s fun t =>
      t.lasers[p].emitMismatch = 0 ∧ t.lasers[p].emitReadback = s.lasers[p].emitEn ∧
      t.lasers[p].available = s.lasers[p].available) ∧
    (s.lasers[p].emitMismatch < 2 → Answers (.emitReadback p !s.lasers[p].emitEn) s fun t =>
      t.lasers[p].emitMismatch = s.lasers[p].emitMismatch + 1 ∧ t.lasers[p].available = s.lasers[p].available) ∧
    (s.lasers[p].emitMismatch = 2 → Answers (.emitReadback p !s.lasers[p].emitEn) s fun t =>
      t.lasers[p].emitMismatch = 3 ∧ t.lasers[p].available = false) ∧
    (∀ n, 8 ≤ n → s.safetyOk = true → s.alone 3 = true → s.supply.resetHeld = none → Answers (.safetyOkFall n) s fun t =>
      t.safetyOk = false ∧ t.dark = true ∧
      (s.modState = .building ∨ s.modState = .service → t.modState = .safe ∧ t.cause = 0x0306) ∧
      (s.modState ≠ .building → s.modState ≠ .service → t.modState = s.modState)) ∧
    (∀ n, 800000 ≤ n → exec (.safetyOkRise n) s = .next { s with safetyOk := true })

/-- Waits that end a layer or a stall (R23, R86, R87, R109, R160, R162); that an engine with work held up goes to PARKED is
the choice of log entry 107. -/
def Obligations.StallRows : Prop :=
  ∀ (s : State) (e : EngineId),
    (∀ d, s.engines[e].readyTimer = some d → d ≤ s.tick → s.eff e = .armed → s.laserReady e = false →
      Answers (.readyTimeout e) s fun t =>
        t.eff e = .stalled ∧ t.engines[e].stallLaser = true ∧ t.engines[e].readyTimer = none) ∧
    (∀ d, s.engines[e].forcedTimer = some d → d ≤ s.tick → s.eff e = .stalled → s.engines[e].stallLaser = true →
      s.lastInLayer e = true → s.laserReady e = false → Answers (.layerEndForced e) s fun t =>
        t.layer.coverageLost = true ∧ t.engines[e].layerDone = true ∧ t.engines[e].buf = [] ∧
        (t.eff e = .idle ∨ t.eff e = .armed)) ∧
    (s.eff e = .running → s.engines[e].buf = [] → s.engines[e].planEnd ≤ upd * (s.tick / 40) →
      s.engines[e].ctx.isSome = true ∨ s.stolenWaiting e = true →
      Answers (.bufferEmptyStall e) s fun t => t.eff e = .stalled ∧ t.engines[e].stallLaser = false) ∧
    (s.eff e = .running → s.engines[e].buf = [] → s.engines[e].planEnd ≤ upd * (s.tick / 40) →
      s.engines[e].ctx = none → s.stolenWaiting e = false → s.bestContext e = none → s.heldUp e = true →
      Answers (.bufferEmptyStall e) s fun t => t.eff e = .parked ∧ t.remainders = s.remainders) ∧
    (s.eff e = .stalled → s.engines[e].noWork = false → s.laserReady e = true → Answers (.stallResume e) s fun t =>
      t.eff e = .running ∧ t.engines[e].wait = .none ∧ t.engines[e].buf = s.engines[e].buf) ∧
    (∀ k n since, s.engines[e].wait = .token k n since → k < 64 → since + 80000 * s.armNat 0x2803 3 ≤ s.tick →
      (∀ h : k < 64, s.tokens[k].seen s.tick < n) → Answers (.tokenTimeout e) s fun t =>
        t.eff e = .parked ∧ t.tokens = s.tokens) ∧
    (s.modState = .building → (∀ i : EngineId, s.engines[i].st ≠ .standin ∧ s.eff i ≠ .running ∧
      s.eff i ≠ .yielding ∧ s.eff i ≠ .stalled) →
      (∃ r ∈ s.remainders, r.token.isSome = true ∨ r.seamWait.isSome = true) →
      (∀ r ∈ s.remainders, r.token.isSome = true ∨ r.seamWait.isSome = true) →
      Answers .heldRemaindersLost s fun t => t.layer.coverageLost = true ∧
        t.remainders = []) ∧
    ((∃ r ∈ s.remainders, r.token = none ∧ r.seamWait = none) → exec .heldRemaindersLost s = .next s)

/-- The arbiter (R94, R99, R100, R101, R105). -/
def Obligations.ArbiterRows : Prop :=
  ∀ (s : State) (e : EngineId),
    (∀ c, s.nextDecision = some c → c.engine = e.val → c.held = false → s.decidedAt ≠ some s.tick →
      s.engines[e].claimId = some c.id → s.engines[e].wait ≠ .credit → s.blockers c = [] →
      Answers (.claimDecision e) s fun t => t.engines[e].claimGranted = true ∧ t.engines[e].claimId = some c.id ∧
        t.engines[e].wait = .none ∧ (s.eff e = .yielding → t.eff e = .running)) ∧
    (∀ c, s.nextDecision = some c → c.engine = e.val → c.held = false → s.decidedAt ≠ some s.tick →
      s.engines[e].claimId = some c.id → s.engines[e].wait ≠ .credit → s.blockers c ≠ [] → s.engines[e].group = none →
      Answers (.claimDecision e) s fun t => t.eff e = .yielding ∧ t.decidedAt = some s.tick ∧
        t.engines[e].claimGranted = s.engines[e].claimGranted) ∧
    (s.decidedAt = some s.tick → s.engines[e].wait ≠ .credit → exec (.claimDecision e) s = .next s) ∧
    (exec (.keepoutRelease e) s = .next { s with claims := s.claims.filter fun c =>
      c.engine != e.val || match c.releaseAt with
        | none => true
        | some r => decide (s.tick < r + s.armNat 0x2801 7 * 80) }) ∧
    (∀ n c since, s.engines[e].claimId = some n → s.claim? n = some c → s.engines[e].wait = .claim since →
      s.eff e = .yielding → since + 5120 ≤ s.tick → s.blockers c = [] → Answers (.waitBound e) s fun t =>
        t.eff e = .running ∧ t.engines[e].claimGranted = true) ∧
    (∀ n c since, s.engines[e].claimId = some n → s.claim? n = some c → s.engines[e].wait = .claim since →
      s.eff e = .yielding → since + 5120 ≤ s.tick → s.blockers c ≠ [] →
      (∀ b ∈ s.blockers c, outranks c b = false) → s.remainders = [] → s.engines[e].buf ≠ [] →
      Answers (.waitBound e) s fun t => t.eff e = .parked ∧ t.engines[e].claimId = none ∧
        t.remainders.map (·.claimId) = [some c.id]) ∧
    (s.eff e = .running ∨ s.eff e = .parked → (∀ d, s.engines[e].stealAt = some d → d ≤ s.tick) →
      s.bufferedTime e < s.armNat 0x2802 1 → Answers (.stealAttempt e) s fun t =>
        t.engines[e].stealAt = some (s.tick + 80000) ∧
        (s.candidates e ≠ [] → reserveInUse s.contexts e = false →
          t.engines[e].stolenQ.length = s.engines[e].stolenQ.length + 1 ∧ t.engines[e].stealEmpty = false) ∧
        (s.candidates e = [] → t.engines[e].stolenQ = s.engines[e].stolenQ ∧ t.engines[e].stealEmpty = true))

/-- Contexts (R157, R158, R159, R161). -/
def Obligations.ContextRows : Prop :=
  ∀ (s : State), keysFrom 0 s.contexts = true →
    (∀ e (c : CtxId) y n x, s.engines[e].ctx = some c → assocGet c.val s.contexts = some y →
      s.bestContext e = some (n, x) → n < 512 → y.priority < x.priority → x.spilled = false → s.eff e = .running →
      s.atPreemptionPoint e = true → (freeSlot s.contexts).isSome = true → reserveInUse s.contexts e = false →
      Answers (.preemption e) s fun t => (t.engines[e].ctx.map (·.val)) = some n ∧ t.eff e = .running ∧
        (assocGet c.val t.contexts).map (·.st) = some .preempted ∧ (assocGet n t.contexts).map (·.st) = some .running) ∧
    (∀ e n x, s.modState = .building → s.engines[e].ctx = none → s.engines[e].buf = [] → s.eff e = .parked →
      s.bestContext e = some (n, x) →
      n < 512 → x.spilled = false → reserveInUse s.contexts e = false → Answers (.preemption e) s fun t =>
        (t.engines[e].ctx.map (·.val)) = some n ∧ t.eff e = .running) ∧
    (∀ n c p s', freeSlots s.contexts < 16 → assocGet n s.contexts = some c → c.st = .preempted ∨ c.st = .blocked →
      c.saveSlot < 96 → c.spilled = false → c.area.isSome = true →
      (∀ y ∈ s.contexts, y.1 ≠ n → (y.2.st = .preempted ∨ y.2.st = .blocked) → c.stopTick < y.2.stopTick) →
      s.faultHeld .spill 255 c.space (s.spillAddress n c) = false →
      s.translate .spill c.space (s.spillAddress n c) true = (s', .ok p) → Answers (.contextSpill) s fun t =>
        (assocGet n t.contexts).map (fun x => (x.spilled, x.saveSlot, x.area, x.spillAddress))
          = some (true, 255, none, s.spillAddress n c)) ∧
    (∀ (n : CtxId) c p s' a, assocGet n.val s.contexts = some c → c.st = .blocked → c.blockedCause = 3 →
      c.spilled = true → s.faultHeld .spill 255 c.space c.spillAddress = false →
      s.translate .spill c.space c.spillAddress false = (s', .ok p) →
      (s'.readPhys .spill p 256).2.bind parseArea = some a → Answers (.contextFill ⟨n, false⟩) s fun t =>
        (assocGet n.val t.contexts).map (fun x => (x.st, x.spilled, x.area)) = some (c.before, false, some a)) ∧
    (∀ (n : CtxId) c, assocGet n.val s.contexts = some c → c.st = .preempted → c.area.isSome = true →
      Answers (.contextFill ⟨n, true⟩) s fun t => t.layer.coverageLost = true ∧
        (assocGet n.val t.contexts).map (fun x => (x.area, x.saveSlot, x.wordOffset)) = some (none, 255, 0))

/-- Fetching and decoding blocks (R18, R50, R51, R52, R165, R319). -/
def Obligations.BlockRows : Prop :=
  ∀ (s : State),
    (∀ e x s' b, s.inService e = true → s.heldFetch e = none → s.nextFetch e = some x → x.held = false →
      s.fetchCredit e = true → s.readBlock x.space x.address = (s', .ok b) → Answers (.blockFetch e) s fun t =>
        t.fetched = s.fetched ++ [(e, { x with waited := false }, parseHeader (b.take 32), b.drop 32)] ∧
          t.contexts = s.contexts) ∧
    (∀ e x s' va l c, s.inService e = true → s.heldFetch e = none → s.nextFetch e = some x → x.held = false →
      s.fetchCredit e = true → s.readBlock x.space x.address = (s', .fault va l c) →
      s'.faultHeld .fetch e.val x.space va = false → s'.faults.length < 64 → Answers (.blockFetch e) s fun t =>
        t.fetched = (if s.inRun e x.ctx x.stolen then s.fetched ++ [(e, { x with held := true }, ({} : BlockHeader),
          [])] else s.fetched) ∧ t.lastFault.map (fun f => (f.address, f.level, f.cause, f.inst)) = some (va, l, c,
            e.val) ∧
        t.faults.length = s'.faults.length + 1) ∧
    (∀ (i : Fin 2) e x h payload rest ws, s.inflaters[i].inService = true → s.fetched = (e, x, h, payload) :: rest →
      s.slotsUsed e + s.freedOf 2 e.val < 4 → s.blockWanted e x = true → s.inRun e x.ctx x.stolen = true →
      (s.engines[e].buf.any fun b => b.keptFor x.ctx x.listIndex x.stolen) = false → x.held = false →
      x.attempt = 0 → x.stolen = false → isTemplate h = false → s.maySee e h = true →
      s.checkPayload h x.lastOfList payload = .ok ws → ws ≠ [] → Answers (.blockInflate ⟨i, false⟩) s fun t =>
        t.fetched = rest ∧ t.engines[e].buf.getLast?.map (fun b => (b.address, b.header, b.words)) = some (x.address,
          h, ws)) ∧
    (∀ (i : Fin 2) e x h payload rest off code, s.inflaters[i].inService = true → s.fetched = (e, x, h, payload) :: rest →
      s.slotsUsed e + s.freedOf 2 e.val < 4 → s.blockWanted e x = true → x.held = false → x.attempt = 0 →
        payload ≠ [] → code ≠ 0x10 →
      s.checkPayload h x.lastOfList payload = .error (off, code) → Answers (.blockInflate ⟨i, false⟩) s fun t =>
        t.fetched = rest ∧ t.layer.coverageLost = true ∧ t.nat (0x3003 + 0x100 * e.val) 2 = x.address ∧
        t.nat (0x3003 + 0x100 * e.val) 3 = code ∧ t.nat (0x3003 + 0x100 * e.val) 4 = off)

/-- The spare channel (R174, R176, R177, R181, R182, R185, R186, R209); how the checks of R185 are reported is the choice of
log entry 117. -/
def Obligations.SpareRows : Prop :=
  ∀ (s : State),
    (∀ (e : EngineId) (c : Fin 6) (k : Nat), e ≠ 12 → s.engines[e].routed.map (·.val) = some e.val →
      s.engines[e].st ≠ .fault → s.engines[e].st ≠ .trim → s.spareFree = true →
      k = ((8 * (s.tick : Int) - s.gateAlign e) / 320).toNat →
      (s.eff e = .running ∨ s.eff e = .yielding → (newestCheckpoint s.engines[e].checkpoints k).isSome = true) →
      Answers (.takeover [(e, c)] {} []) s fun t =>
        t.engines[e].st = .fault ∧ t.engines[e].selfCheck = s.engines[e].selfCheck ||| 2 ^ c.val ∧
        t.spare.standinFor = some e ∧ t.spare.takeoverAt = some ((s.tick + 79) / 40 * 40) ∧
        (∀ x ∈ t.contexts, x.2.owner ≠ e.val) ∧ (∀ p, s.engines[e].routed = some p → t.lasers[p].lgate = false)) ∧
    (∀ (e : EngineId) (c : Fin 6), e ≠ 12 → s.engines[e].routed.isSome = true → s.engines[e].st ≠ .fault →
      s.engines[e].st ≠ .trim → s.engines[e].st ≠ .spare → s.spareFree = false → Answers (.takeover [(e,
        c)] {} []) s fun t =>
        t.engines[e].st = .fault ∧ t.engines[e].buf = [] ∧ (∀ x ∈ t.fetched, x.1 ≠ e) ∧
        t.spare.standinFor = s.spare.standinFor) ∧
    (∀ p, s.modState = .building → s.supply.resetHeld = none →
      Answers (.takeover [] { control := true, path := p } []) s fun t => Transition s t .safe 0x0605 ∧ t.dark = true ∧
        .outsideContinuity ∈ t.safeCauses) ∧
    (s.spare.pathFault = false → Answers (.takeover [] { path := true } []) s fun t => t.spare.pathFault = true) ∧
    (∀ d (n : EngineId) p, s.spare.takeoverAt = some d → d ≤ s.tick → s.spare.standinFor = some n → n ≠ 12 →
      s.engines[n].routed = some p → Answers .standinRoute s fun t =>
        t.engines[(12 : EngineId)].st = .standin ∧ t.engines[(12 : EngineId)].routed = some p ∧
        t.engines[n].routed = none ∧ t.spare.takeoverAt = none ∧ t.lasers[p].resync = true ∧
        t.val 0x3C10 4 = ((s.tick - s.spare.failTick : Nat) : Int)) ∧
    (∀ q (v : Byte) (h : v.toNat < 13), s.admits q 0x3C10 5 v.toNat = true → s.engines[(12 : EngineId)].st = .spare →
      s.spare.takeoverAt = none → s.spare.trimPending = none → s.spare.trimming = none →
      Answers (.trimRequest q v) s fun t => t.answer = 0 ∧ t.spare.trimPending = some ⟨v.toNat, h⟩) ∧
    (∀ q (v : Byte), v.toNat < 13 → s.admits q 0x3C10 5 v.toNat = true → s.engines[(12 : EngineId)].st ≠ .spare →
      Answers (.trimRequest q v) s fun t => t.answer = 0x0404 ∧ t.spare = s.spare) ∧
    (∀ q, s.admits q 0x3C10 5 255 = true → Answers (.trimWithdraw q 0xFF) s fun t =>
      t.answer = 0 ∧ t.spare.trimPending = none) ∧
    (∀ (n : EngineId), s.spare.trimPending = some n → n ≠ 12 → s.engines[(12 : EngineId)].st = .spare →
      s.spare.takeoverAt = none → s.engines[n].st = .idle ∨ s.engines[n].st = .armed →
      (s.cal.running && s.cal.laser == n.val) = false → Answers .trimStart s fun t =>
        t.spare.trimPending = none ∧ t.spare.trimming = some n ∧ t.engines[n].st = .trim ∧ t.engines[n].routed = none ∧
        (s.buildArmed = true → t.engines[(12 : EngineId)].st = .standin ∧
          t.engines[(12 : EngineId)].routed = s.engines[n].routed)) ∧
    (∀ (n : EngineId) pass codes, s.spare.trimming = some n → s.engines[n].st = .trim → n ≠ 12 →
      s.spare.standinFor ≠ some n → Answers (.trimEnd pass codes) s fun t =>
        t.spare.trimming = none ∧ t.engines[n].routed = ownLaser n ∧
        t.engines[n].st = (if s.buildArmed then .armed else .idle) ∧
        (pass = false → t.records = s.records) ∧
        (∀ r, pass = true → s.records[12] = some r → t.records[12] = some (r.withCodes n codes))) ∧
    (∀ (n : EngineId) p, s.spare.standinFor = some n → n ≠ 12 → s.engines[(12 : EngineId)].routed = some p →
      s.spare.forTrim = true → s.spare.trimDone = true → s.engines[(12 : EngineId)].st = .standin →
      s.engines[n].st = .trim → s.spare.subState = .armed ∨ s.spare.subState = .idle → Answers .handBack s fun t =>
        t.engines[n].routed = some p ∧ (t.engines[n].st = .armed ∨ t.engines[n].st = .idle) ∧
        t.engines[(12 : EngineId)].st = .spare ∧ t.engines[(12 : EngineId)].routed = none ∧ t.spare.standinFor = none)

/-- The Heat Ledger (R120, R122, R123, R126, R127, R128, R129). -/
def Obligations.LedgerRows : Prop :=
  ∀ (s : State), s.ledger.cols ≤ 65536 →
    (∀ e d r i j, s.engines[e].ledgerQ = d :: r → d.at8 ≤ 8 * (s.tick : Int) → s.ledger.heldFills = [] →
      d.cellI = ((i : Nat) : Int) → d.cellJ = ((j : Nat) : Int) → i < s.ledger.cols → j < s.ledger.rows →
      decayed (s.armNat 0x5200 2) (s.cell i j) (s.tick / 80000 * 2000) ≠ 65535 → Answers (.deposit e) s fun t =>
        t.engines[e].ledgerQ = r ∧
        t.cell i j = codeOf (densityOf (decayed (s.armNat 0x5200 2) (s.cell i j) (s.tick / 80000 * 2000))
            + depositDensity (s.armNat 0x5200 3) d.energy (s.armNat 0x5200 1)) * 65536 + s.tick / 80000 % 65536 ∧
        (∀ a b, a < 65536 → (i + 1 < a ∨ a + 1 < i ∨ j + 1 < b ∨ b + 1 < j) → t.cell a b = s.cell a b)) ∧
    (∀ ti tj u, 4 * ti < s.ledger.cols → 4 * tj < s.ledger.rows → 0 < s.armNat 0x5200 2 →
      Answers (.ledgerTileFill ti tj u) s fun t =>
        (ti, tj) ∉ t.ledger.heldFills ∧ (∀ m ∈ t.ledger.missQ, ¬ (m.1 = ti ∧ m.2.1 = tj)) ∧
        (u = true → ∀ a b, 4 * ti ≤ a → a < 4 * ti + 4 → 4 * tj ≤ b → b < 4 * tj + 4 → cellCode (t.cell a b) = 65535)) ∧
    (∀ ti tj, 4 * ti + 3 < s.ledger.cols → 4 * tj + 3 < s.ledger.rows → (ti, tj) ∉ s.ledger.heldFills →
      (∀ m, assocGet (tj * 65536 + ti) s.ledger.swept = some m → m + 4096 ≤ s.tick / 80000) →
      Answers (.ledgerSweep ti tj) s fun t =>
        assocGet (tj * 65536 + ti) t.ledger.swept = some (s.tick / 80000) ∧
        ∀ a b, 4 * ti ≤ a → a < 4 * ti + 4 → 4 * tj ≤ b → b < 4 * tj + 4 →
          t.cell a b = (if s.cell a b = 0 then 0
            else if decayed (s.armNat 0x5200 2) (s.cell a b) (s.tick / 80000 * 2000) = 65535 then s.cell a b
            else if decayed (s.armNat 0x5200 2) (s.cell a b) (s.tick / 80000 * 2000) = 0 then 0
            else decayed (s.armNat 0x5200 2) (s.cell a b) (s.tick / 80000 * 2000) * 65536 + s.tick / 80000 % 65536)) ∧
    (∀ (e : EngineId) r rest, s.engines[e].lookReqs = r :: rest → s.lanes[laneOf e].lookQ.length < 64 →
      Answers (.lookaheadResult e) s fun t => t.engines[e].lookReqs = rest ∧
        t.lanes[laneOf e].lookQ = s.lanes[laneOf e].lookQ ++ [(r.update, (s.preheat r).map fun v => codeOf (v / 65536))])

/-- Melt-pool samples and lanes (R117, R118, R133, R140, R147, R149). -/
def Obligations.LaneRows : Prop :=
  ∀ (s : State),
    (∀ p x r e, s.lasers[p].mpsQ = x :: r → s.engineOf p = some e → Answers (.samplePair p) s fun t =>
      t.lasers[p].mpsQ = r ∧
      t.lanes[laneOf e].sample.map (fun m => (m.valid, m.sat, m.signal, m.gateOn))
        = some (x.valid, x.saturated, s.signalOf p x, s.engines[e].levelAt x.at8) ∧
      (x.saturated = true → t.lanes[laneOf e].sample.map (·.signal) = some 65535) ∧
      (x.valid = true → t.lasers[p].signal = s.signalOf p x)) ∧
    (∀ p r e, s.lasers[p].anom = some r → s.engineOf p = some e → r.active = false →
      s.armNat 0x5000 2 ≤ r.length → Answers (.anomalyStart p) s fun t =>
        t.lasers[p].anom = some { r with active := true }) ∧
    (∀ e sm p, s.lanes[laneOf e].sample = some sm → s.engines[e].routed = some p → s.engines[e].st ≠ .fault →
      0 < s.engines[e].onTime (160 * sm.slot + s.alignOf p) (160 * sm.slot + s.alignOf p + 160) →
      Answers (.laneRun e) s fun t => t.lanes[laneOf e].sample = none ∧
        t.lasers[p].pwrQ.getLast? = some (sm.slot, min 65535
          ((s.engines[e].programmed sm.slot : Int)
            + roundDiv ((s.engines[e].programmed sm.slot : Int) * t.lanes[laneOf e].c) 32768).toNat)) ∧
    (∀ e sm p, s.lanes[laneOf e].sample = some sm → s.engines[e].routed = some p →
      s.engines[e].onTime (160 * sm.slot + s.alignOf p) (160 * sm.slot + s.alignOf p + 160) ≤ 0 →
      Answers (.laneRun e) s fun t => t.lanes[laneOf e].sample = none ∧ t.lasers = s.lasers ∧
        t.lanes[laneOf e].c = s.lanes[laneOf e].c) ∧
    (∀ (n : LaneId), s.lanes[n].lost = true → s.nat (0x580B + 0x20 * (s.paramLane n).val) 6 = 1 →
      (if n.val < 13 then 4000 else 50) ≤ s.lanes[n].goodRun → s.lossCause n = none → n.val < 13 ∨ 16 < n.val →
      Answers (.feedbackReturned n) s fun t => t.lanes[n].lost = false ∧ t.lanes[n].goodRun = 0) ∧
    (∀ (n : LaneId) v, n.val < 17 → s.slotOpen n = false → exec (.axisLaneRun n v) s = .next s) ∧
    (∀ (n : LaneId) a v, axisOf n = some a → s.slotOpen n = true → Answers (.axisLaneRun n v) s fun t =>
      t.axes[a].laneOut = t.lanes[n].c ∧
      t.lanes[n].effective = (if s.nat (0x6003 + 0x100 * a.val) 0x0D = 1 then
        (if s.lanes[n].lost then .ff else .closed) else .open)) ∧
    (∀ (n : LaneId) v, 17 ≤ n.val → s.slotOpen n = true → Answers (.axisLaneRun n v) s fun t =>
      t.lanes[n].output = t.lanes[n].c ∧
      (∀ i : Fin 4, i.val = s.nat (0x5810 + 0x20 * n.val) 2 → t.aout[i] = t.lanes[n].c) ∧
      t.lanes[n].effective = (if s.nat (0x5810 + 0x20 * n.val) 1 < 4 then .closed else .open))

/-- Commands to a lane (R142, R149, R150, R151). -/
def Obligations.LaneCommands : Prop :=
  ∀ (s : State) (q : Sess) (n : LaneId),
    (s.admits q (0x5801 + 0x20 * n.val) 9 1 = true → s.modState ≠ .building →
      (∀ i < 8, stageOpValid (s.nat (0x5801 + 0x20 * n.val) (i + 1)) = true) →
      ((s.stagedChain n).map fun g => stageMacs g.op).sum ≤ chainBudget n →
      handoverValid (s.stagedChain n) (s.nat (0x5801 + 0x20 * n.val) 0x0B) = true →
        Answers (.chainCommit q n 1) s fun t =>
        t.answer = 0 ∧ t.lanes[n].next = some (s.stagedChain n, s.nat (0x5801 + 0x20 * n.val) 0x0B)) ∧
    (s.admits q (0x5801 + 0x20 * n.val) 9 1 = true → s.modState ≠ .building →
      (∀ i < 8, stageOpValid (s.nat (0x5801 + 0x20 * n.val) (i + 1)) = true) →
      chainBudget n < ((s.stagedChain n).map fun g => stageMacs g.op).sum → Answers (.chainCommit q n 1) s fun t =>
        t.answer = 0x0203 ∧ t.lanes = s.lanes) ∧
    (s.admits q (0x580C + 0x20 * n.val) 0x0C 1 = true → s.injAllowed n = true → s.injPar n 1 ≠ 0 →
      Answers (.injStart q n 1) s fun t => t.answer = 0 ∧
        t.lanes[n].inj = { running := true, runs := 0, phase := 0, prbs := 2 ^ (s.injPar n 8).toNat - 1 }) ∧
    (s.admits q (0x580C + 0x20 * n.val) 0x0C 1 = true → s.injAllowed n = false → Answers (.injStart q n 1) s fun t =>
      t.answer = 0x0105 ∧ t.lanes = s.lanes) ∧
    (s.lanes[n].inj.running = true → s.injOver n = true ∨ s.injAllowed n = false → Answers (.injectionEnd n) s fun t =>
      t.lanes[n].inj = {} ∧ t.lanes[n].chain = s.lanes[n].chain) ∧
    (s.admits q 0x5F00 8 1 = true → Answers (.capStart q 1) s fun t => t.answer = 0 ∧ t.capture = { state := 1 }) ∧
    (s.capture.state = 2 → s.nat 0x5F00 7 ≤ s.capture.count → Answers .captureDone s fun t =>
      t.capture = { s.capture with state := 3 }) ∧
    (s.admits q (0x580F + 0x20 * n.val) 1 1 = true → Answers (.profStart q n 1) s fun t =>
      t.answer = 0 ∧ t.lanes[n].profStart = some s.tick ∧ t.lanes[n].profFrom = s.lanes[n].r)

/-- Calibration procedures start (R194, R197, R199 to R208). -/
def Obligations.CalibrationStarts : Prop :=
  ∀ (s : State) (q : Sess) (p : Byte) (l : LaserId), s.calBusy = false → laserOf p = some l →
    (∀ r, s.admits q 0xE000 1 ((256 * 2 + p.toNat : Nat) : Int) = true → s.modState = .service →
      s.recordOf p.toNat = some r →
      81 ≤ (s.headFiducials l r).length → emptySquare (r.w * 200) (s.headFiducials l r) = false →
      Answers (.headMap q p) s fun t => t.answer = 0 ∧ t.cal.procedure = 2 ∧ t.cal.laser = p.toNat ∧ t.cal.state = 1) ∧
    (s.admits q 0xE000 1 ((256 * 2 + p.toNat : Nat) : Int) = true → s.modState ≠ .service →
      Answers (.headMap q p) s fun t => t.answer = 0x0105 ∧ t.cal = s.cal) ∧
    (s.admits q 0xE000 1 ((256 * 3 + p.toNat : Nat) : Int) = true → s.modState = .service → s.hasRecord p = true →
      Answers (.focusMap q p) s fun t => t.answer = 0 ∧ t.cal.procedure = 3 ∧ t.cal.laser = p.toNat ∧ t.cal.state = 1) ∧
    (s.admits q 0xE000 1 ((256 * 4 + p.toNat : Nat) : Int) = true → s.modState = .service → s.hasRecord p = true →
      Answers (.gateAlign q p) s fun t => t.answer = 0 ∧ t.cal.procedure = 4 ∧ t.cal.laser = p.toNat ∧ t.cal.state = 1) ∧
    (s.admits q 0xE000 1 ((256 * 5 + p.toNat : Nat) : Int) = true → s.modState = .service → s.hasRecord p = true →
      Answers (.driftPoint q p) s fun t => t.answer = 0 ∧ t.cal.procedure = 5 ∧ t.cal.laser = p.toNat ∧ t.cal.state = 1) ∧
    (s.admits q 0xE000 1 ((256 * 6 + 255 : Nat) : Int) = true → s.modState = .service →
      Answers (.crossCheck q 0xFF) s fun t => t.answer = 0 ∧ t.cal.procedure = 6 ∧ t.cal.laser = 255 ∧ t.cal.state = 1) ∧
    (s.admits q 0xE000 1 ((256 * 7 + p.toNat : Nat) : Int) = true → s.modState = .service → s.hasRecord p = true →
      Answers (.powerLin q p) s fun t => t.answer = 0 ∧ t.cal.procedure = 7 ∧ t.cal.laser = p.toNat ∧ t.cal.state = 2 ∧
        t.cal.level = 1 ∧ t.cal.readings = [] ∧ t.cal.readingTimer = some (s.tick + s.nat 0xE011 5 * 80000000)) ∧
    (s.admits q 0xE000 1 ((256 * 8 + p.toNat : Nat) : Int) = true → s.modState = .service → s.hasRecord p = true →
      Answers (.pdGain q p) s fun t => t.answer = 0 ∧ t.cal.procedure = 8 ∧ t.cal.laser = p.toNat ∧ t.cal.state = 1) ∧
    (s.admits q 0xE000 1 ((256 * 9 + p.toNat : Nat) : Int) = true → s.modState = .service →
      Answers (.linkEye q p) s fun t => t.answer = 0 ∧ t.cal.procedure = 9 ∧ t.cal.laser = p.toNat ∧ t.cal.state = 1 ∧
        t.lasers[l].link = .idle ∧ t.lasers[l].available = false) ∧
    (s.admits q 0xE000 1 ((256 * 10 + 255 : Nat) : Int) = true → s.modState = .ready →
      Answers (.sensorOffset q 0xFF) s fun t => t.answer = 0 ∧ t.cal.procedure = 10 ∧ t.cal.state = 1 ∧
        t.supply.shed = true ∧ t.jobs = []) ∧
    (s.admits q 0xE000 1 ((256 * 11 + 255 : Nat) : Int) = true → s.modState = .ready → s.disciplined = true →
      Answers (.oscModel q 0xFF) s fun t => t.answer = 0 ∧ t.cal.procedure = 11 ∧ t.cal.state = 1) ∧
    (s.admits q 0xE000 1 ((256 * 1 + p.toNat : Nat) : Int) = true → s.modState = .service → s.lasers[l].regs.length = 8 →
      Answers (.initHead q p) s fun t => t.answer = 0 ∧ t.cal.procedure = 1 ∧ t.cal.state = 3 ∧ t.cal.result = 0 ∧
        t.lasers[l].link = .idle ∧
        (t.recordOf p.toNat).map (fun r => (r.provisional, r.w, r.f, r.map))
          = some (true, s.lasers[l].regs.getD 6 0, s.lasers[l].regs.getD 7 0, []))

/-- Calibration procedures end, and records are committed (R192 to R196, R201, R204). -/
def Obligations.CalibrationEnds : Prop :=
  ∀ (s : State) (q : Sess),
    (∀ w : BitVec 32, s.admits q 0xE011 1 w.toNat = true → s.cal.procedure = 7 → s.cal.state = 2 →
      s.cal.level < s.nat 0xE011 4 → Answers (.powerReading q w) s fun t => t.answer = 0 ∧
        t.cal.readings = s.cal.readings ++ [w.toNat] ∧ t.cal.level = s.cal.level + 1 ∧ t.cal.state = 2 ∧
        t.cal.readingTimer = some (s.tick + s.nat 0xE011 5 * 80000000)) ∧
    (∀ w : BitVec 32, s.admits q 0xE011 1 w.toNat = true → s.cal.procedure = 7 → s.cal.state = 2 →
      s.nat 0xE011 4 ≤ s.cal.level → Answers (.powerReading q w) s fun t => t.answer = 0 ∧
        t.cal.readings = s.cal.readings ++ [w.toNat] ∧ t.cal.state = 1 ∧ t.cal.readingTimer = none) ∧
    (∀ d, s.cal.readingTimer = some d → d ≤ s.tick → Answers .readingTimeout s fun t =>
      t.cal.state = 0 ∧ t.cal.pending = [] ∧ t.cal.readingTimer = none ∧ t.records = s.records) ∧
    (s.admits q 0xE000 1 0xFF00 = true → s.cal.running = true → Answers (.calStop q) s fun t =>
      t.answer = 0 ∧ t.cal.state = 0 ∧ t.cal.pending = [] ∧ t.records = s.records) ∧
    (∀ c, s.cal.running = true → s.cal.abort = some c → Answers .calAborted s fun t =>
      t.cal.state = 0 ∧ t.cal.pending = [] ∧ t.cal.abort = none ∧ t.records = s.records) ∧
    (∀ e : Int, s.cal.running = true → s.cal.procedure = 4 → s.cal.doneAt ≤ s.tick → 0 ≤ e → e ≤ 640 →
      Answers (.calDone (.lag e)) s fun t =>
      t.cal.state = 3 ∧ t.cal.result = 0 ∧
      t.cal.pending = [(s.cal.laser, { (s.recordOf s.cal.laser).getD {} with gateAlign := e.toNat })] ∧
      t.records = s.records) ∧
    (∀ e : Int, s.cal.running = true → s.cal.procedure = 4 → s.cal.doneAt ≤ s.tick → (e < 0 ∨ 640 < e) →
      Answers (.calDone (.lag e)) s fun t =>
      t.cal.state = 0 ∧ t.cal.result = 0x0201 ∧ t.cal.pending = []) ∧
    (∀ residuals errors tHead, s.cal.running = true → s.cal.procedure = 2 → s.cal.doneAt ≤ s.tick →
      Answers (.calDone (.map residuals errors tHead)) s fun t => t.cal.state = 3 ∧ t.cal.result = 0 ∧
        t.cal.pending.map (fun x => (x.1, x.2.tCal)) = [(s.cal.laser, tHead)] ∧ t.records = s.records) ∧
    (s.admits q 0xE000 5 1 = true → s.cal.state = 3 → s.cal.procedure ≠ 1 → s.figuresOk = true →
      s.provisionalOk = true → s.cal.pending ≠ [] → Answers (.calAcceptCommit q) s fun t => t.answer = 0 ∧
        t.cal.state = 4 ∧ t.cal.pending = [] ∧
        t.cal.committing = s.cal.committing ++ s.cal.pending.map (fun x => (x.1, s.cal.procedure, x.2))) ∧
    (s.admits q 0xE000 5 1 = true → s.cal.state = 3 → s.figuresOk = false → Answers (.calAcceptCommit q) s fun t =>
      t.answer = 0x0203 ∧ t.cal = s.cal) ∧
    (s.admits q 0xE000 5 2 = true → s.cal.state = 3 → Answers (.calAcceptDiscard q) s fun t =>
      t.answer = 0 ∧ t.cal.state = 0 ∧ t.cal.pending = [] ∧ t.records = s.records) ∧
    (∀ (r : Fin 13) (d : Bytes), s.admits q (0xE030 + r.val) 3 d.length = true →
      s.modState = .ready ∨ s.modState = .service → s.calBusy = false → importCheck r.val d = 0 →
      Answers (.recordImport q r d) s fun t => t.answer = 0 ∧ t.cal.committing = [(r.val, 0, parseCal r.val d)] ∧
        t.records = s.records) ∧
    (∀ i pr c rest, s.cal.committing = (i, pr, c) :: rest → i < 13 → Answers (.recordCommitDone [true, true]) s fun t =>
      t.cal.committing = rest ∧ (t.recordOf i).map (·.generation) = some (s.lastGeneration i + 1) ∧
      assocGet i t.nv.copyA = t.recordOf i ∧ assocGet i t.nv.copyB = t.recordOf i)

/-- Camera ports (R212 to R215). -/
def Obligations.CameraRows : Prop :=
  ∀ (s : State) (p : CamId),
    (∀ vc : Fin 4, imagingRuns s.modState = true → s.cams[p].staged = none → s.cams[p].cfg.enable = true →
      s.cams[p].cfg.vc = vc.val → Answers (.camFrameStart p vc) s fun t =>
        t.cams[p].frameNumber = s.cams[p].frameNumber + 1 ∧
        t.cams[p].frame.map (fun f => (f.number, f.width, f.height, f.lines, f.deadline))
          = some (s.cams[p].frameNumber + 1, s.cams[p].cfg.width, s.cams[p].cfg.height, 0,
              s.tick + 80000 * s.cams[p].cfg.timeout)) ∧
    (∀ (vc : Fin 4) g, imagingRuns s.modState = true → s.cams[p].staged = some g → g.vc = vc.val → g.enable = true →
      Answers (.camFrameStart p vc) s fun t => t.cams[p].cfg = g ∧ t.cams[p].staged = none ∧
        t.cams[p].frame.map (fun f => (f.width, f.height, f.dataType)) = some (g.width, g.height, g.dataType)) ∧
    (∀ (vc : Fin 4) (dt : Byte) crc px f, imagingRuns s.modState = true → s.cams[p].cfg.enable = true →
      s.cams[p].cfg.vc = vc.val → s.cams[p].cfg.dataType = dt.toNat → s.cams[p].frame = some f →
      (if f.lines % 8 = 0 then s.cams[p].imgCredits ≠ 0 else s.cams[p].groupLost = false) → f.lines < f.height →
      px.length = f.width * pixelBytes f.dataType → Answers (.camLongPacket p vc dt true crc px) s fun t =>
        t.cams[p].frame = some { f with
          lines := f.lines + 1, crcError := f.crcError || !crc
          pixels := f.pixels.take (f.lines * px.length) ++ px ++ f.pixels.drop (f.lines * px.length + px.length) }) ∧
    (∀ (vc : Fin 4) (dt : Byte) crc px, imagingRuns s.modState = true → s.cams[p].cfg.enable = true →
      (s.cams[p].cfg.vc ≠ vc.val ∨ s.cams[p].cfg.dataType ≠ dt.toNat) →
      Answers (.camLongPacket p vc dt true crc px) s fun t => t.cams = s.cams) ∧
    (∀ (vc : Fin 4) f, imagingRuns s.modState = true → s.cams[p].cfg.vc = vc.val → s.cams[p].frame = some f →
      Answers (.camFrameEnd p vc) s fun t => t.cams[p].frame = none ∧
        (assocGet f.slot t.cams[p].ring).map (fun g => (g.number, g.bad))
          = some (f.number, f.truncated || f.crcError || decide (f.lines ≠ f.height))) ∧
    (∀ f, s.cams[p].frame = some f → f.deadline ≤ s.tick → Answers (.frameTimeout p) s fun t =>
      t.cams[p].frame = none ∧
      (assocGet f.slot t.cams[p].ring).map (fun g => (g.number, g.bad, g.truncated)) = some (f.number, true, true)) ∧
    (∀ q, s.admits q (0x7000 + p.val) 0x0A 1 = true → s.modState ≠ .building →
      (s.stagedCam p).lanes = 1 ∨ (s.stagedCam p).lanes = 2 → 80 ≤ (s.stagedCam p).laneRate →
      (s.stagedCam p).laneRate ≤ 1500 → (∀ i ∈ [4, 5, 6, 7, 8, 9], s.stagedBad (0x7000 + p.val) i = false) →
      Answers (.portCommit q p 1) s fun t => t.answer = 0 ∧ t.cams[p].staged = some (s.stagedCam p) ∧
        t.cams[p].cfg = s.cams[p].cfg ∧ t.nat (0x7000 + p.val) 0x0B = 0) ∧
    (∀ q, s.admits q (0x7000 + p.val) 0x0A 1 = true → s.modState = .building →
      Answers (.portCommit q p 1) s fun t => t.answer = 0x0105 ∧ t.cams = s.cams) ∧
    (∀ q, s.admits q (0x7000 + p.val) 0x0F 1 = true → s.nat (0x7000 + p.val) 0x0C = 1 →
      imagingRuns s.modState = true → s.cams[p].trig = false → s.tick % 32000 ≠ 0 → Answers (.trigNow q p 1) s fun t =>
        t.answer = 0 ∧ t.cams[p].request = true) ∧
    (s.nat (0x7000 + p.val) 0x0C = 2 →
      s.nat (0x7000 + p.val) 0x0D * (if 2 ≤ s.supply.level then 2 else 1) ≤ s.cams[p].scanCount →
      imagingRuns s.modState = true → s.cams[p].trig = false → s.tick % 32000 ≠ 0 → Answers (.trigPeriod p) s fun t =>
        t.cams[p].scanCount = 0 ∧ t.cams[p].request = true) ∧
    (∀ d, s.cams[p].trigUntil = some d → d ≤ s.tick → Answers (.exposureEnd p) s fun t =>
      t.cams[p].trig = false ∧ t.cams[p].trigUntil = none ∧ t.cams[p].strobe = false)

/-- Planes, output and DisplayPort (R218 to R227). -/
def Obligations.CompositorRows : Prop :=
  ∀ (s : State) (q : Sess) (k : PlaneId),
    (s.admits q (0x7100 + k.val) 0x12 1 = true → s.planeCheck k (s.stagedPlane k) = 0 →
      Answers (.planeCommit q k 1) s fun t =>
      t.answer = 0 ∧ t.planes[k].next = some (s.stagedPlane k) ∧ t.planes[k].cfg = s.planes[k].cfg ∧
      t.nat (0x7100 + k.val) 0x13 = 0) ∧
    (s.admits q (0x7100 + k.val) 0x12 1 = true → s.planeCheck k (s.stagedPlane k) ≠ 0 →
      Answers (.planeCommit q k 1) s fun t =>
      t.answer = s.planeCheck k (s.stagedPlane k) ∧ t.planes = s.planes ∧
      t.nat (0x7100 + k.val) 0x13 = s.planeCheck k (s.stagedPlane k)) ∧
    (∀ i, s.admits q (0x7100 + k.val) 0x11 1 = true → s.planes[k].cfg.source = 0x10 →
      s.memorySource s.planes[k].cfg = some i → Answers (.planeFlip q k 1) s fun t =>
        t.answer = 0 ∧ t.planes[k].scaling = some i) ∧
    (∀ i lost, s.planes[k].scaling = some i → Answers (.scaleDone k lost) s fun t =>
      t.planes[k].isNew = true ∧ t.planes[k].fresh = some (s.scaleImage k.val s.planes[k].cfg i lost)) ∧
    (s.planes[k].stale = true → s.planes[k].transparent = false → s.planes[k].cfg.staleLimit ≤ s.planes[k].staleRun →
      Answers (.planeTransparent k) s fun t => t.planes[k].transparent = true) ∧
    (imagingRuns s.modState = true → Answers .outputFrameBoundary s fun t =>
      t.comp.frameNumber = s.comp.frameNumber + 1 ∧ t.val 0x7200 0x0A = (s.comp.frameNumber + 1 : Nat) ∧
      t.planes[k].next = none ∧ t.planes[k].cfg = s.planes[k].next.getD s.planes[k].cfg) ∧
    (s.admits q 0x7200 6 1 = true → 25000 ≤ s.nat 0x7200 5 → s.nat 0x7200 5 ≤ 300000 →
      s.nat 0x7200 1 + 16 ≤ s.nat 0x7200 3 → s.nat 0x7200 2 + 16 ≤ s.nat 0x7200 4 → Answers (.outCommit q 1) s fun t =>
        t.answer = 0 ∧ t.comp.width = s.nat 0x7200 1 ∧ t.comp.height = s.nat 0x7200 2 ∧
        t.comp.clock = s.nat 0x7200 5 ∧ t.comp.flattenRun = some s.tick) ∧
    (s.admits q 0x7200 6 1 = true → (s.nat 0x7200 5 < 25000 ∨ 300000 < s.nat 0x7200 5) →
      Answers (.outCommit q 1) s fun t =>
      t.answer = 0x0702 ∧ t.comp = s.comp) ∧
    (s.admits q 0x7200 0x0C 1 = true → Answers (.reflatten q 1) s fun t =>
      t.answer = 0 ∧ t.comp.flattenRun = some s.tick) ∧
    (∀ d, s.comp.flattenRun = some d → Answers .flattenDone s fun t => t.comp.flattenRun = none ∧
      t.comp.flattenReady = some ((s.tick - d) / 80000) ∧ t.planes = s.planes) ∧
    (exec (.writebackFault false) s = .next { s with comp := { s.comp with writebackHeld := true } }) ∧
    (∀ x rest, s.comp.ring = x :: rest → Answers (.writebackFault true) s fun t =>
      t.comp.writebackHeld = false ∧ t.comp.ring = { x with bad := true } :: rest) ∧
    (∀ tr ed, Answers (.dpHpd false tr ed) s fun t => t.comp.hpd = false ∧ t.nat 0x7210 2 = 0 ∧ t.comp.retryAt = none) ∧
    (∀ tr ed, s.comp.hpd = false → s.nat 0x7210 1 = 1 → imagingRuns s.modState = true → (4, 0x14) ∈ tr →
      Answers (.dpHpd true tr ed) s fun t => t.comp.hpd = true ∧ t.nat 0x7210 3 = 4 ∧ t.nat 0x7210 4 = 0x14 ∧
        t.nat 0x7210 2 = (if s.comp.clock * 240 ≤ 4 * (270000 * 0x14) * 8 then 2 else 3) ∧ t.blob 0x7210 5 = ed) ∧
    (∀ d, s.comp.hpd = true → s.nat 0x7210 1 = 1 → imagingRuns s.modState = true → s.comp.retryAt = some d →
      d ≤ s.tick → Answers (.dpRetrain []) s fun t =>
        t.nat 0x7210 2 = 1 ∧ t.comp.retryAt = some (s.tick + 80000000))

/-- Petals (R229 to R232).
Over the 64 scans of 64 steps of a PWM cycle a string of effective duty d is on in exactly d steps, no two scans
differing by more than one step (R230). -/
def Obligations.PetalRows : Prop :=
  (∀ (s : State),
      (∀ fails, s.tick % 32000 = 0 → s.scanNumber ≠ s.tick / 32000 + 1 → imagingRuns s.modState = true →
        Answers (.scanBoundary fails) s fun t => t.scanNumber = s.tick / 32000 + 1 ∧
          (∀ p : CamId, t.cams[p].scanCount = s.cams[p].scanCount + 1 ∧
            (s.cams[p].request = true → s.cams[p].trig = false → t.cams[p].trig = true ∧ t.cams[p].request = false ∧
              t.cams[p].trigUntil = some (s.tick + 32000 * s.nat (0x7000 + p.val) 0x0E))) ∧
          (∀ (k : PetalId) (c : Fin 12), fails.contains (k, c) = true → s.petals[k].failRun.getD c.val 0 = 2 →
            t.petals[k].stringOff.getLsbD c.val = true) ∧
          (∀ (k : PetalId) (c : Fin 12), fails.contains (k, c) = false → s.petals[k].stringOff.getLsbD c.val = false →
            t.petals[k].stringOff.getLsbD c.val = false)) ∧
      (∀ (k : PetalId) r, imagingRuns s.modState = true → Answers (.ntcReading k r) s fun t =>
        t.petals[k].readings = (r :: s.petals[k].readings).take 8 ∧
        t.val (0x7820 + k.val) 1 = roundDiv (t.petals[k].readings.sum) t.petals[k].readings.length ∧
        ((r < -4000 ∨ 15000 < r) → 2 ≤ s.petals[k].badRun → s.petals[k].ntcFailed = false →
          t.petals[k].ntcValid = false ∧ t.petals[k].ntcFailed = true) ∧
        (-4000 ≤ r → r ≤ 15000 → 99 ≤ s.petals[k].goodRun → t.petals[k].ntcValid = true)) ∧
      (∀ q (k : PetalId) (c : Fin 4) (v : BitVec 16), s.admits q (0x7810 + k.val) (c.val + 1) v.toNat = true →
        v.toNat ≤ 4095 → Answers (.dutyWrite q k c v) s fun t => t.answer = 0 ∧
          t.val (0x7810 + k.val) (c.val + 1) = v.toNat) ∧
      (∀ q (k : PetalId) (c : Fin 4) (v : BitVec 16), s.admits q (0x7810 + k.val) (c.val + 1) v.toNat = true →
        4095 < v.toNat → Answers (.dutyWrite q k c v) s fun t => t.answer = 0x0201 ∧ t.petals = s.petals ∧
          t.val (0x7810 + k.val) (c.val + 1) = s.val (0x7810 + k.val) (c.val + 1))) ∧
  (∀ d ≤ 4095,
      ((List.range 64).map fun m => (List.range 64).countP fun t => pwmOn d m t).sum = d ∧
      ∀ m < 64, (List.range 64).countP (fun t => pwmOn d m t) = d / 64 ∨
        (List.range 64).countP (fun t => pwmOn d m t) = d / 64 + 1)

/-- Axis commands (R238, R239, R240, R242, R257, R258). -/
def Obligations.AxisCommands : Prop :=
  ∀ (s : State) (q : Sess) (a : AxisId),
    (∀ code, s.admits q (0x6001 + 0x100 * a.val) 1 ((code : Nat) * 256 + (0 : Nat)) = true →
      axisServed s.modState code = true →
      s.axisRefusal a code = none →
      (code = 1 → Answers (.enable q a) s fun t => t.answer = 0 ∧ t.axes[a].st = .enabling ∧ t.axes[a].enaOn = true ∧
        t.axes[a].brakeAt = some (s.tick + 80000 * s.nat (0x6003 + 0x100 * a.val) 0x0C) ∧
        t.axes[a].doneAt = some (s.tick + 2 * (80000 * s.nat (0x6003 + 0x100 * a.val) 0x0C))) ∧
      (code = 2 → Answers (.disable q a) s fun t => t.answer = 0 ∧ t.axes[a].st = .disabled ∧ t.axes[a].brakeOn = true ∧
        t.axes[a].enaOffAt = some (s.tick + 80000 * s.nat (0x6003 + 0x100 * a.val) 0x0C)) ∧
      (code = 3 → Answers (.moveAbs q a) s fun t => t.answer = 0 ∧ t.axes[a].st = .moving ∧
        t.axes[a].motive = .target (s.val (0x6001 + 0x100 * a.val) 2 * 65536)) ∧
      (code = 4 → Answers (.moveRel q a) s fun t => t.answer = 0 ∧ t.axes[a].st = .moving ∧
        t.axes[a].motive = .target ((s.axes[a].advance s.tick).pos + s.val (0x6001 + 0x100 * a.val) 2 * 65536)) ∧
      (code = 5 → Answers (.jog q a) s fun t => t.answer = 0 ∧ t.axes[a].st = .moving ∧
        t.axes[a].motive = .jog (s.val (0x6001 + 0x100 * a.val) 3 * 65536)) ∧
      (code = 6 → s.axes[a].coordMask = 0 → Answers (.stop q a) s fun t => t.answer = 0 ∧ t.axes[a].st = .stopping ∧
        t.axes[a].motive = .halt ∧ t.axes[a].homeTimer = none) ∧
      (code = 7 → Answers (.home q a) s fun t => t.answer = 0 ∧ t.axes[a].homeMode = s.nat (0x6007 + 0x100 * a.val) 5 ∧
        (s.switchActive a 0 = false → s.switchActive a 1 = false → t.axes[a].st = .homing ∧
        t.axes[a].homeTimer = some (s.tick + s.nat (0x6007 + 0x100 * a.val) 9 * 80000000))) ∧
      (code = 9 → Answers (.clear q a) s fun t => t.answer = 0 ∧ t.axes[a].st = .standstill ∧
        t.axes[a].stopFault = false ∧ ∀ i ∈ [3, 4, 8, 9, 10, 14], bitOf t.axes[a].flags i = false) ∧
      (code = 10 → Answers (.follow q a) s fun t => t.answer = 0 ∧ t.axes[a].st = .slaved ∧ t.axes[a].outstanding = 0) ∧
      (code = 11 → Answers (.setPosition q a) s fun t => t.answer = 0 ∧ t.axes[a].st = s.axes[a].st ∧
        t.axes[a].pos = s.val (0x6001 + 0x100 * a.val) 2 * 65536 ∧ t.axes[a].actual = s.val (0x6001 + 0x100 * a.val) 2 ∧
        bitOf t.axes[a].flags 0 = true)) ∧
    (∀ m : Byte, s.admits q (0x6001 + 0x100 * a.val) 1 ((8 : Nat) * 256 + (m.toNat : Nat)) = true →
      axisServed s.modState 8 = true → 1 ≤ m.toNat → m.toNat ≤ 15 →
      (∀ i : AxisId, bitOf m.toNat i.val = true → s.axisRefusal i 8 = none) → Answers (.coord q a m) s fun t =>
        t.answer = 0 ∧ ∀ i : AxisId, bitOf m.toNat i.val = true → t.axes[i].st = .moving ∧
          t.axes[i].coordMask = m.toNat ∧ t.axes[i].coordFrom = s.axes[i].pos) ∧
    (∀ st, s.admits q (0x6001 + 0x100 * a.val) 1 ((3 : Nat) * 256 + (0 : Nat)) = true → axisServed s.modState 3 = true →
      s.axisRefusal a 3 = some st → st ≠ 0 → Answers (.moveAbs q a) s fun t =>
        t.answer = st ∧ t.axes = s.axes ∧ t.nat (0x6000 + 0x100 * a.val) 7 = st) ∧
    (s.admits q (0x6001 + 0x100 * a.val) 1 ((3 : Nat) * 256 + (0 : Nat)) = true → s.modState = .safe →
      Answers (.moveAbs q a) s fun t => t.answer = 0x0105 ∧ t.axes = s.axes) ∧
    (∀ v : BitVec 32, s.admits q (0x6002 + 0x100 * a.val) 1 v.toNat = true → v.toNat ≠ 0 →
      v.toNat ≤ (if s.nat (0x6003 + 0x100 * a.val) 1 = 1 then 4000000 else 100000000) →
        Answers (.velLimitWrite q a v) s fun t =>
        t.answer = 0 ∧ t.val (0x6002 + 0x100 * a.val) 1 = v.toNat ∧ t.axes = s.axes) ∧
    (∀ v : BitVec 32, s.admits q (0x6002 + 0x100 * a.val) 2 v.toNat = true → v.toNat ≠ 0 → v.toNat ≤ 4000000000 →
      v.toNat ≤ s.nat (0x6002 + 0x100 * a.val) 4 → s.axes[a].st = .standstill →
        Answers (.accelLimitWrite q a v) s fun t =>
        t.answer = 0 ∧ t.axes[a].limA = v.toNat ∧ t.axes[a].deferredA = none ∧
        t.val (0x6002 + 0x100 * a.val) 2 = v.toNat) ∧
    (∀ v : BitVec 32, s.admits q (0x6002 + 0x100 * a.val) 2 v.toNat = true → v.toNat ≠ 0 → v.toNat ≤ 4000000000 →
      s.nat (0x6002 + 0x100 * a.val) 4 < v.toNat → Answers (.accelLimitWrite q a v) s fun t =>
        t.answer = 0x0203 ∧ t.axes = s.axes)

/-- Timers and ends of motion of an axis (R238, R240, R243, R244, R253, R257, R258). -/
def Obligations.AxisEvents : Prop :=
  ∀ (s : State) (a : AxisId),
    (∀ d, s.axes[a].doneAt = some d → d ≤ s.tick → s.axes[a].st = .enabling → Answers (.enableDone a) s fun t =>
      t.axes[a].st = .standstill ∧ t.axes[a].doneAt = none ∧ t.axes[a].pos = s.axes[a].pos) ∧
    (∀ d, s.axes[a].brakeAt = some d → d ≤ s.tick → s.axes[a].st = .enabling → Answers (.brakeRelease a) s fun t =>
      t.axes[a].brakeOn = false ∧ t.axes[a].brakeAt = none) ∧
    (∀ d, s.axes[a].enaOffAt = some d → d ≤ s.tick → Answers (.enaOff a) s fun t =>
      t.axes[a].enaOn = false ∧ t.axes[a].enaOffAt = none) ∧
    (s.axes[a].st = .stopping → s.axes[a].replan = false → (s.axes[a].planState s.tick).2 = true →
      Answers (.stopComplete a) s fun t => t.axes[a].vel = 0 ∧
        t.axes[a].st = (if s.axes[a].stopFault then .fault else .standstill)) ∧
    (∀ d, s.axes[a].homeTimer = some d → d ≤ s.tick → s.axes[a].st = .homing → s.axes[a].coordMask = 0 →
      s.modState ≠ .building → Answers (.homingTimeout a) s fun t => t.axes[a].st = .stopping ∧
        t.axes[a].stopFault = true ∧ t.axes[a].stopCause = 4 ∧ t.nat (0x6000 + 0x100 * a.val) 7 = 0x0606) ∧
    (s.axes[a].st = .standstill → s.axes[a].profileEnded = true → s.nat (0x6005 + 0x100 * a.val) 1 = 0 →
      Answers (.inPosition a) s fun t => bitOf t.axes[a].flags 1 = true) ∧
    (∀ v, s.tick % 1600 = 0 → s.axes[a].st = .standstill → s.nat (0x6005 + 0x100 * a.val) 1 = 0 →
      Answers (.profilePeriod a v) s fun t =>
        t.axes[a].limV = s.nat (0x6002 + 0x100 * a.val) 1 ∧ t.axes[a].outPos = s.outputPos a ∧
        t.axes[a].st = .standstill ∧ t.axes[a].pos = s.axes[a].pos) ∧
    (∀ v p, s.tick % 1600 = 0 → s.axes[a].st = .moving → s.axes[a].motive = .target p → s.axes[a].coordMask = 0 →
      s.axes[a].limV = s.nat (0x6002 + 0x100 * a.val) 1 → s.axes[a].replan = false →
      (s.axes[a].planState s.tick).2 = true → s.nat (0x6005 + 0x100 * a.val) 1 = 0 →
        Answers (.profilePeriod a v) s fun t =>
        t.axes[a].st = .standstill ∧ t.axes[a].pos = p ∧ t.axes[a].vel = 0) ∧
    (∀ d, s.axes[a].edgeTimer = some d → d ≤ s.tick → Answers (.standstillTimeout a) s fun t =>
      t.axes[a].speed = 0 ∧ t.axes[a].edgeTimer = none ∧ bitOf t.axes[a].flags 7 = true) ∧
    (s.inBuild = true → s.layer.moving = true → s.layer.stage ≤ 3 →
      (∀ i ∈ s.layerAxes, s.nat (0x6008 + 0x100 * i.val) 3 + 1 = s.layer.stage → bitOf s.axes[i].flags 1 = true) →
      Answers .layerStageStart s fun t => t.layer.stage = s.layer.stage + 1 ∧
        ∀ i ∈ s.layerAxes, s.nat (0x6008 + 0x100 * i.val) 3 = s.layer.stage → s.axes[i].st = .standstill →
          t.axes[i].st = .moving ∧ t.axes[i].motive = .target (s.axes[i].pos +
            (if s.nat (0x6008 + 0x100 * i.val) 1 = 2 ∧ s.layer.number % 2 = 0 then -s.val (0x6008 + 0x100 * i.val) 2
             else s.val (0x6008 + 0x100 * i.val) 2) * 65536))

/-- Inputs of an axis (R247 to R256). -/
def Obligations.AxisInputs : Prop :=
  ∀ (s : State) (a : AxisId),
    (∀ d, s.axes[a].st = .slaved →
      s.intoLimit a (s.axes[a].outstanding + (if d then 1 else -1) * s.nat (0x6004 + 0x100 * a.val) 1 * 65536) = false →
      Answers (.stepInEdge a d) s fun t =>
        t.axes[a].outstanding = s.axes[a].outstanding + (if d then 1 else -1) * s.nat (0x6004 + 0x100 * a.val) 1 * 65536 ∧
        t.axes[a].lastStep = some s.tick ∧
        t.val (0x6004 + 0x100 * a.val) 2 = s.val (0x6004 + 0x100 * a.val) 2 + (if d then 1 else -1)) ∧
    (∀ d, s.axes[a].st ≠ .slaved → Answers (.stepInEdge a d) s fun t => t.axes = s.axes ∧
      t.val (0x6004 + 0x100 * a.val) 2 = s.val (0x6004 + 0x100 * a.val) 2 + (if d then 1 else -1)) ∧
    (∀ la lb, s.nat (0x6005 + 0x100 * a.val) 1 = 1 → s.nat (0x6005 + 0x100 * a.val) 5 = 0 →
      s.nat (0x6005 + 0x100 * a.val) 3 = 0 → (la != s.axes[a].lineA) ≠ (lb != s.axes[a].lineB) →
      Answers (.encoderEdge a la lb) s fun t => t.axes[a].lineA = la ∧ t.axes[a].lineB = lb ∧
        t.axes[a].encCount = s.axes[a].encCount +
          (if (quadPlace la lb - quadPlace s.axes[a].lineA s.axes[a].lineB) % 4 = 1 then 1 else -1)) ∧
    (s.nat (0x6005 + 0x100 * a.val) 1 = 1 → Answers (.encoderEdge a (!s.axes[a].lineA) (!s.axes[a].lineB)) s fun t =>
      bitOf t.axes[a].flags 3 = true ∧ t.axes[a].encCount = s.axes[a].encCount) ∧
    (∀ sn cs r2, s.nat (0x6005 + 0x100 * a.val) 1 = 2 →
      r2 = ((sn - s.val (0x6005 + 0x100 * a.val) 0x13) * (sn - s.val (0x6005 + 0x100 * a.val) 0x13)
        + roundDiv ((cs - s.val (0x6005 + 0x100 * a.val) 0x14) * s.val (0x6005 + 0x100 * a.val) 0x15) 16384
          * roundDiv ((cs - s.val (0x6005 + 0x100 * a.val) 0x14) * s.val (0x6005 + 0x100 * a.val) 0x15) 16384).toNat →
      Answers (.sincosSample a sn cs) s fun t =>
        t.nat (0x6006 + 0x100 * a.val) 8 = min 65535 (roundDiv r2 16384).toNat ∧
        t.axes[a].ampRun = (if r2 < s.nat (0x6005 + 0x100 * a.val) 9 * s.nat (0x6005 + 0x100 * a.val) 9 ∨
          s.nat (0x6005 + 0x100 * a.val) 0x0A * s.nat (0x6005 + 0x100 * a.val) 0x0A < r2 then s.axes[a].ampRun + 1 else 0)) ∧
    (∀ la lb, s.nat (0x6005 + 0x100 * a.val) 1 ≠ 0 → s.nat (0x6005 + 0x100 * a.val) 7 = 255 →
      s.nat (0x6005 + 0x100 * a.val) 5 ≠ 0 → s.axes[a].st ≠ .homing → s.axes[a].indexRef = none →
      Answers (.indexPulse a la lb) s fun t => t.axes[a].indexRef = some (s.encPosition a)) ∧
    (∀ la lb r, s.nat (0x6005 + 0x100 * a.val) 1 ≠ 0 → s.nat (0x6005 + 0x100 * a.val) 7 = 255 →
      s.nat (0x6005 + 0x100 * a.val) 5 ≠ 0 → s.axes[a].st ≠ .homing → s.axes[a].indexRef = some r →
      s.nat (0x6005 + 0x100 * a.val) 6 ≠ 1 → Answers (.indexPulse a la lb) s fun t =>
        t.val (0x6006 + 0x100 * a.val) 6
          = (s.encPosition a - r + (s.nat (0x6005 + 0x100 * a.val) 5 / 2 : Nat)) % s.nat (0x6005 + 0x100 * a.val) 5
            - (s.nat (0x6005 + 0x100 * a.val) 5 / 2 : Nat) ∧ t.axes[a].actual = s.axes[a].actual) ∧
    (∀ sw lv, Answers (.switchChange a sw lv) s fun t => t.axes[a].swRaw.getLsbD sw.val = lv) ∧
    (∀ (sw : Fin 3) lv, s.axes[a].swRaw.getLsbD sw.val = lv → s.axes[a].swLevel.getLsbD sw.val ≠ lv →
      s.axes[a].swSince[sw] + s.nat (0x6007 + 0x100 * a.val) 2 * 80 ≤ s.tick → Answers (.switchChange a sw lv) s fun t =>
        t.axes[a].swLevel.getLsbD sw.val = lv ∧
        (s.axes[a].st = .moving → s.axes[a].coordMask = 0 → sw = 0 → lv = true →
          bitOf (s.nat (0x6007 + 0x100 * a.val) 1) 0 = false → 0 < (s.axes[a].advance s.tick).vel →
          t.axes[a].st = .stopping ∧ t.axes[a].stopFault = true ∧ t.axes[a].stopCause = 0)) ∧
    (∀ sw, s.axes[a].swChatter.getLsbD sw.val = true → s.transitions a sw ≤ s.nat (0x6007 + 0x100 * a.val) 3 →
      Answers (.chatterCleared a sw) s fun t => t.axes[a].swChatter.getLsbD sw.val = false) ∧
    (s.nat (0x6005 + 0x100 * a.val) 1 ≠ 0 → bitOf s.axes[a].flags 14 = false →
      s.nat (0x580B + 0x20 * (axisLane a).val) 1 ≤ s.axes[a].invalidRun → Answers (.axisFeedbackLost a) s fun t =>
        bitOf t.axes[a].flags 14 = true ∧ t.lanes[axisLane a].lost = true ∧
        (s.axes[a].st = .moving → s.axes[a].coordMask = 0 → t.axes[a].st = .stopping)) ∧
    (∀ uA uB iA iB dA dB d, s.axes[a].st = .moving → s.axes[a].homeTimer = none →
      d = signed 16 (unsigned 16
        ((s.modAxis a fun x => x.advance s.tick).outputPos a * 2 ^ 14
            / (max 1 (s.nat (0x6003 + 0x100 * a.val) 5) : Nat) / 65536
          - ((angle16 (1000 * uB - s.nat (0x6003 + 0x100 * a.val) 7 * iB - s.nat (0x6003 + 0x100 * a.val) 8 * dB)
            (1000 * uA - s.nat (0x6003 + 0x100 * a.val) 7 * iA - s.nat (0x6003 + 0x100 * a.val) 8 * dA) : Int) - 16384))) →
      Answers (.stall a uA uB iA iB dA dB) s fun t => t.axes[a].loadAngle = roundDiv (d * 360) 65536 ∧
        (s.nat (0x6003 + 0x100 * a.val) 1 = 2 →
          s.nat (0x6003 + 0x100 * a.val) 0x0B ≤ ((s.axes[a].advance s.tick).vel / 65536).natAbs →
          (s.nat (0x6003 + 0x100 * a.val) 9 : Int) * 65536 < d.natAbs * 360 →
          s.nat (0x6003 + 0x100 * a.val) 0x0A ≤ s.axes[a].stallRun + 1 →
          t.axes[a].st = .fault ∧ bitOf t.axes[a].flags 9 = true ∧ bitOf t.axes[a].flags 0 = false))

/-- The commands of StateCommand in the states in which Table 1.6 has them: each leads where the table says (R25,
R301, R348, R391, Table 7.4).
Triggers of the same tick act in the order of R26: THERMAL_OFF, RESET, HOLDUP, SAFE, and the command of a host last,
judged in the state that they leave. -/
def Obligations.BuildTransitions : Prop :=
  (∀ (s : State) (q : Sess), s.alone 4 = true →
      (∀ p, s.admits q 0x2001 1 1 = true → (s.touch q).armRefusal = none → s.pkg.inForce = some p →
        ({ s.touch q with armDict := s.dict } : State).armCheck ((s.touch q).loadContexts p) = none →
        s.nat 0x5000 4 = 0 → Answers (.arm q) s fun t =>
          Commanded t 0 ∧ t.modState = .armed ∧ t.cause = 0 ∧ t.resumeArm = false) ∧
      (s.admits q 0x2001 1 2 = true → s.modState = .armed → Answers (.disarm q) s fun t =>
        Commanded t 0 ∧ Transition s t .ready 0 ∧ t.contexts = s.contexts.filter (fun x => !x.2.freedByDisarm) ∧
        t.claims = [] ∧ t.layer.running = false ∧ t.time.scheduled = none) ∧
      (s.admits q 0x2001 1 3 = true → s.modState = .armed → s.safetyOk = true → Answers (.start q) s fun t =>
        Commanded t 0 ∧ Transition s t .building 0 ∧ t.nv.resume = none ∧ t.time.scheduled = none ∧
        t.contexts = s.contexts ∧ t.layer = { s.layer with first := true } ∧
        ∀ e : EngineId, t.nat (engIx 0x3005 e) 1 = 0) ∧
      (s.admits q 0x2001 1 5 = true → s.modState = .paused → s.safetyOk = true → (s.touch q).nextUnreachable = false →
        Answers (.resume q) s fun t => Commanded t 0 ∧ Transition s t .building 0 ∧ t.engines = s.engines ∧
          t.contexts = s.contexts ∧ t.layer = s.layer ∧ SettingsKept s t) ∧
      (s.admits q 0x2001 1 6 = true → s.modState = .building ∨ s.modState = .paused → Answers (.abort q) s fun t =>
        Commanded t 0 ∧ Transition s t .ready 0 ∧ t.contexts = s.contexts.map (fun x => (x.1, x.2.abort)) ∧
        t.claims = [] ∧ t.remainders = [] ∧
        ∀ e : EngineId, t.eff e ≠ .running ∧ t.eff e ≠ .yielding ∧ t.eff e ≠ .stalled ∧ t.eff e ≠ .parked) ∧
      (s.admits q 0x2001 1 7 = true → s.modState = .safe → s.safetyOk = true →
        (∀ c ∈ s.safeCauses, s.persists c = false) → Answers (.clearSafe q) s fun t =>
          Commanded t 0 ∧ Transition s t .ready 0 ∧ t.safeCauses = []) ∧
      (s.admits q 0x2001 1 8 = true → s.modState = .ready → Answers (.enterService q) s fun t =>
        Commanded t 0 ∧ Transition s t .service 0 ∧ t.engines = s.engines ∧ t.axes = s.axes ∧ t.mem = s.mem ∧
        SettingsKept s t) ∧
      (s.admits q 0x2001 1 9 = true → s.modState = .service → Answers (.leaveService q) s fun t =>
        Commanded t 0 ∧ Transition s t .ready 0 ∧ t.engines = s.engines ∧ t.axes = s.axes ∧ t.mem = s.mem ∧
        ((∀ x ∈ s.nv.copyA ++ s.nv.copyB, x.2.provisional = false) → ∀ p : LaserId, ∀ r,
          t.records[p.val]'(by have := p.isLt; omega) = some r →
          r.provisional = false))) ∧
  (∀ (s : State) (q : Sess),
      (∀ n, s.pending = [.safetyOkFall n] → 8 ≤ n → s.admits q 0x2001 1 3 = true → s.modState = .armed →
        s.supply.resetHeld = none → Answers (.start q) s fun t =>
          Commanded t 0x0306 ∧ t.modState = .armed ∧ t.safetyOk = false ∧ t.dark = true) ∧
      (∀ n (v : Int) a b bank load us, s.pending = [.thermalShutdown n v] → s.modState ≠ .off → s.modState ≠ .thermalOff →
        n.val < 16 → s.excludedSensor n.val = false → 12000 ≤ v → Answers (.pfStop a b bank load us) s fun t =>
          t.modState = .thermalOff ∧ t.supply.railsOff = true) ∧
      (∀ n ns, s.pending = [.resetL ns] → 1000 ≤ ns → s.modState = .service → s.supply.copierPending = none →
        Answers (.safetyOkFall n) s fun t => t.modState = .reset ∧ t.supply.resetCause = 4))

/-- PAUSE, RESTART and the instants of scheduled starts (R25, R301, R302, R346); a layer starts and ends (R25, R86, R87,
R108, R185). -/
def Obligations.BuildRows : Prop :=
  (∀ (s : State) (q : Sess),
      (s.alone 4 = true → s.admits q 0x2001 1 4 = true → s.modState = .building → s.layer.running = true →
        Answers (.pause q) s fun t =>
        Commanded t 0 ∧ t.modState = .building ∧ t.layer.pauseRequested = true ∧ t.engines = s.engines ∧
        t.contexts = s.contexts ∧ SettingsKept s t) ∧
      (s.alone 4 = true → s.admits q 0x2001 1 4 = true → s.modState = .building → s.layer.running = false →
        Answers (.pause q) s fun t =>
        Commanded t 0 ∧ Transition s t .paused 0 ∧ t.engines = s.engines ∧ t.contexts = s.contexts) ∧
      (s.alone 4 = true → s.admits q 0x2001 1 10 = true → s.modState ≠ .building → s.modState ≠ .paused →
        s.supply.copierPending = none →
        Answers (.restart q) s fun t => t.answer = 0 ∧ Transition s t .reset 0 ∧ t.supply.resetCause = 7 ∧
          t.dark = true ∧ t.mem = [] ∧ t.tick = s.tick ∧ ∀ i : Sess, t.sessions[i] = none) ∧
      (s.alone 4 = true → s.admits q 0x2001 1 10 = true → s.modState = .paused → s.supply.copierPending = none →
        Answers (.restart q) s fun t => Commanded t 0 ∧ t.modState = .paused ∧ t.supply.resetHeld = some 7 ∧
          t.supply.copierPending.isSome = true ∧ t.supply.copierUntil = some (s.tick + 320000) ∧ t.dark = true) ∧
      (∀ d, s.admits q 0x2003 1 0 = true → s.modState = .armed → d.length = 12 → d ≠ List.replicate 12 0 →
        leAt d 8 4 ≤ 999999999 → s.time.status ≠ 0 → s.time.now + 1000000 * nsUnit ≤ instantOf d * nsUnit →
        Answers (.scheduledStartWrite q d) s fun t => t.answer = 0 ∧ t.time.scheduled = some (instantOf d) ∧
          t.blob 0x2003 1 = d ∧ t.modState = .armed ∧ SettingsKept s t) ∧
      (s.admits q 0x2003 1 0 = true → s.modState = .armed →
        Answers (.scheduledStartWrite q (List.replicate 12 0)) s fun t =>
        t.answer = 0 ∧ t.time.scheduled = none ∧ t.modState = .armed) ∧
      (∀ d, s.admits q 0x2003 4 0 = true → d.length = 12 → d ≠ List.replicate 12 0 → leAt d 8 4 ≤ 999999999 →
        Answers (.layerStartAtWrite q d) s fun t => t.answer = 0 ∧ t.time.layerStartAt = some (instantOf d) ∧
          t.blob 0x2003 4 = d ∧ SettingsKept s t) ∧
      (∀ x, s.time.scheduled = some x → s.modState = .armed → s.tick % 40 = 0 → s.reached s.tick x = true →
        s.safetyOk = true → Answers .scheduledStartReached s fun t =>
          Transition s t .building 0 ∧ t.time.scheduled = none ∧ t.contexts = s.contexts) ∧
      (∀ x, s.time.scheduled = some x → s.modState = .armed → s.tick % 40 = 0 → s.reached s.tick x = true →
        s.safetyOk = false → Answers .scheduledStartReached s fun t =>
          t.modState = .armed ∧ t.time.scheduled = none ∧ Recorded t 0x8105)) ∧
  (∀ (s : State),
      (∀ n, s.layerCanStart = true → s.nextLayer = some n → s.spare.pathFault = false → Answers .layerStart s fun t =>
        t.layer.number = n ∧ t.layer.running = true ∧ t.layer.first = false ∧ t.modState = .building ∧
        ∀ k : TokenId, t.tokens[k].count = 0 ∧ t.tokens[k].mailbox = []) ∧
      (∀ n, s.layerCanStart = true → s.nextLayer = some n → s.spare.pathFault = true → s.supply.resetHeld = none →
        Answers .layerStart s fun t => Transition s t .safe 0x0605 ∧ .outsideContinuity ∈ t.safeCauses) ∧
      (s.layerCanStart = false → exec .layerStart s = .next s) ∧
      (s.modState = .building → s.layer.running = true → s.layerOver = false → exec .layerComplete s = .next s) ∧
      (s.modState = .building → s.layer.running = true → s.layerOver = true → s.sec.cryptoPending = false →
        Answers .layerComplete s fun t => t.layer.running = false ∧
          (s.layer.coverageLost = true → Transition s t .paused 0x0305) ∧
          (s.endLayer.layer.coverageLost = false → (∀ x ∈ s.endLayer.contexts, s.endLayer.hasWork x.2 = false) →
            Transition s t .ready 0) ∧
          (s.endLayer.layer.coverageLost = false → (∃ x ∈ s.endLayer.contexts, s.endLayer.hasWork x.2 = true) →
            s.layer.pauseRequested = false → t.modState = .building)) ∧
      (s.modState = .building → s.layer.running = false → s.sec.cryptoPending = false → s.layer.coverageLost = false →
        (∀ x ∈ s.contexts, s.hasWork x.2 = false) → Answers .layerComplete s fun t => Transition s t .ready 0))

/-- Commands of StateCommand out of place: the status of R25 and Table 1.6, and no effect (R278). -/
def Obligations.CommandRefused : Prop :=
  ∀ (s : State) (q : Sess) (i : Instr) (code : Nat) (status : Nat),
    (i, code, status) ∈
      (row (s.modState != .armed) (.disarm q)).map (·, 2, 0x0105)
      ++ (row (s.modState == .ready) (.start q)).map (·, 3, 0x0303)
      ++ (row (s.modState != .ready && s.modState != .armed) (.start q)).map (·, 3, 0x0105)
      ++ (row (s.modState == .armed && !s.safetyOk) (.start q)).map (·, 3, 0x0306)
      ++ (row (s.modState != .building) (.pause q)).map (·, 4, 0x0105)
      ++ (row (s.modState != .paused) (.resume q)).map (·, 5, 0x0105)
      ++ (row (s.modState == .paused && !s.safetyOk) (.resume q)).map (·, 5, 0x0306)
      ++ (row (s.modState != .building && s.modState != .paused) (.abort q)).map (·, 6, 0x0105)
      ++ (row (s.modState != .safe) (.clearSafe q)).map (·, 7, 0x0105)
      ++ (row (s.modState == .safe && !s.safetyOk) (.clearSafe q)).map (·, 7, 0x0306)
      ++ (row (s.modState == .safe && s.safetyOk && s.safeCauses.any s.persists) (.clearSafe q)).map (·, 7, 0x0301)
      ++ (row (s.modState != .ready) (.enterService q)).map (·, 8, 0x0105)
      ++ (row (s.modState != .service) (.leaveService q)).map (·, 9, 0x0105)
      ++ (row (s.modState == .building) (.restart q)).map (·, 10, 0x0302) →
    s.alone 4 = true → s.admits q 0x2001 1 code = true → Answers i s fun t => Commanded t status ∧ SettingsKept s t ∧
      t = { s with answer := status, commandStatus := status, sessions := t.sessions, evtQ := t.evtQ,
                   evtWait := t.evtWait,
                   evtLost := t.evtLost, dict := t.dict, free := t.free }

/-- Requests on a session (R264 to R271). A repeated Sequence gets the stored answer again and no further effect; a
message that is not well formed is discarded.
The message of a cyclic instant is sent once, and none is sent where the module publishes none (R271, R272). -/
def Obligations.RequestRows : Prop :=
  (∀ (s : State) (q : Sess) (m : Bytes),
      (∀ x d, s.asks q m 2 [(1, x)] → x.length = 12 → findEntry (leAt x 0 2) (leAt x 2 1) = some d →
        (within 0x8021 1 2 (leAt x 0 2)).isSome = false → leAt x 0 2 ≠ 0xB010 →
        (s.noted q).readStatus q (leAt m 3 1) (leAt x 0 2) (leAt x 2 1) = none →
        leAt x 4 4 ≤ ((s.noted q).entryBytes q (leAt x 0 2) (leAt x 2 1) d).length → Answers (.readReq q m) s fun t =>
          let b := (s.noted q).entryBytes q (leAt x 0 2) (leAt x 2 1) d
          t.answer = 0 ∧ t.dict = s.dict ∧
          t.answerData = slice b (leAt x 4 4) (min (leAt x 8 4) ((s.nat 0x1012 2 - 16) / 4 * 4 - 20)) ∧
          t.answered q m 3 (readResult (leAt x 0 2) (leAt x 2 1) 0 b.length (leAt x 4 4) t.answerData)) ∧
      (∀ x d v, s.asks q m 4 [(3, x)] → 8 ≤ x.length → findEntry (leAt x 0 2) (leAt x 2 1) = some d →
        d.ty ≠ .str → d.ty ≠ .dom → tooNew (leAt m 3 1) (leAt x 0 2) (leAt x 2 1) = false → leAt x 0 2 ≠ 0xA010 →
        bitOf (leAt x 3 1) 0 = true → leAt x 4 4 = 0 →
        exec (.entryWrite q (BitVec.ofNat 16 (leAt x 0 2)) (BitVec.ofNat 8 (leAt x 2 1)) (x.drop 8)) (s.noted q) = .next v →
        Answers (.writeReq q m) s fun t =>
          t.answer = v.answer ∧ t.dict = v.dict ∧ t.modState = v.modState ∧
          t.answered q m 5 (writeStatus (leAt x 0 2) (leAt x 2 1) v.answer)) ∧
      (∀ x d r ix sub v, s.asks q m 4 [(3, x)] → 8 ≤ x.length → r = s.noted q → ix = leAt x 0 2 → sub = leAt x 2 1 →
        findEntry ix sub = some d → d.ty ≠ .str → d.ty ≠ .dom → tooNew (leAt m 3 1) ix sub = false →
        bitOf (leAt x 3 1) 0 = true → leAt x 4 4 = 0 → hostKey (entryKey ix sub) = true →
        r.admits q ix sub (leNat (x.drop 8)) = true → r.commandWrite q ix sub (x.drop 8) = none →
        (r.touch q).writeSecurity ix sub (x.drop 8) = none → r.stateRefusal ix sub = none →
        (x.drop 8).length = typeSize d.ty → v = decodeValue d.ty (x.drop 8) → inRange d v = true →
        (r.touch q).valueOk ix sub v = true → (r.touch q).putEntry q ix sub v = (r.touch q).put ix sub v →
        ((r.touch q).put ix sub v).consistentAfter ix sub = true → Answers (.writeReq q m) s fun t =>
          t.answer = 0 ∧ t.val ix sub = v ∧ t.modState = s.modState ∧
          (∀ k, k ≠ entryKey ix sub → hostKey k = true → assocGet k t.dict = assocGet k s.dict) ∧
          t.answered q m 5 (writeStatus ix sub 0)) ∧
      (∀ x, s.asks q m 6 [(0x20, x)] → x.length = 8 → leAt x 0 1 ≤ 7 → leAt x 2 2 = 0 →
        Answers (.subscribeReq q m) s fun t =>
        t.answer = 0 ∧ (∀ y, t.sessions[q] = some y → ∀ u ∈ y.subs, u.id ≠ leAt x 0 1) ∧
        t.answered q m 7 (element 0x21 (leBytes 1 (leAt x 0 1) ++ leBytes 1 0 ++ leBytes 2 0 ++ leBytes 2 0xFFFF
          ++ leBytes 2 0))) ∧
      (∀ x, s.asks q m 6 [(0x20, x)] → x.length = 8 + 4 * leAt x 2 2 → leAt x 0 1 ≤ 7 → 1 ≤ leAt x 2 2 → leAt x 2 2 ≤ 64 →
        1 ≤ leAt x 4 4 → leAt x 4 4 ≤ 60000 →
        (s.noted q).subscribeFailure q (leAt m 3 1) []
          ((List.range (leAt x 2 2)).map fun i => leAt x (8 + 4 * i) 2 * 256 + leAt x (10 + 4 * i) 1) = none →
        (s.noted q).cyclicLoad q (leAt x 0 1) + 1000 / ((leAt x 4 4 : Nat) : Rat) ≤ 4000 →
          Answers (.subscribeReq q m) s fun t =>
          t.answer = 0 ∧ ∃ y, t.sessions[q] = some y ∧ ∃ u ∈ y.subs, u.id = leAt x 0 1 ∧ u.period = leAt x 4 4 ∧
            u.entries = (List.range (leAt x 2 2)).map fun i => leAt x (8 + 4 * i) 2 * 256 + leAt x (10 + 4 * i) 1) ∧
      (∀ l, s.asks q m 9 l → Answers (.echoReq q m) s fun t => t.answered q m 10 [] ∧ t.dict = s.dict) ∧
      (∀ l x r, s.served q = true → s.openMessage m = .ok l → leAt m 4 1 = 4 → s.sessions[q] = some x →
        assocGet (leAt m 0x0C 4) x.responses = some r → Answers (.writeReq q m) s fun t =>
          t = { s with sessions := t.sessions, sent := (sessionKey q, r) :: s.sent }) ∧
      (∀ e, s.served q = true → s.openMessage m = .error e → Answers (.writeReq q m) s fun t =>
        t.sent = s.sent ∧ t.answer = s.answer ∧ SettingsKept s t)) ∧
  (∀ (s : State) (q : Sess) (i : Fin 8) (x : Session) (u : Subscription), s.sessions[q] = some x →
      x.subs.find? (fun u => u.id == i.val) = some u →
      (s.served q = true → s.publishes = true → s.time.status = 0 → s.cycleInstant u.period ≠ u.last →
        s.tick ≤ s.cycleInstant u.period + 4000 → Answers (.cyclic q i) s fun t =>
          t.sent.length = s.sent.length + 1 ∧ (t.sent.head?.map (·.1)) = some (sessionKey q) ∧
          ∃ y, t.sessions[q] = some y ∧ ∃ w ∈ y.subs, w.id = i.val ∧ w.last = s.cycleInstant u.period ∧
            w.count = (u.count + 1) % 2 ^ 32 ∧ w.entries = u.entries) ∧
      (s.publishes = false → exec (.cyclic q i) s = .next s) ∧
      (s.cycleInstant u.period = u.last → exec (.cyclic q i) s = .next s))

/-- A whole value is written to an entry without a command of its own (R276 to R278): length, then range, then consistency
with other entries; a refused write changes no entry.
An access refused before its value is looked at answers the status of the refusal, and no entry changes (R278 steps 1 to
3, R361). -/
def Obligations.EntryWriteRow : Prop :=
  (∀ (s : State) (q : Sess) (ix : BitVec 16) (sub : Byte) (data : Bytes) (d : Entry),
      findEntry ix.toNat sub.toNat = some d → d.ty ≠ .str → d.ty ≠ .dom → hostKey (entryKey ix.toNat sub.toNat) = true →
      s.admits q ix.toNat sub.toNat (leNat data) = true → s.commandWrite q ix.toNat sub.toNat data = none →
      (s.touch q).writeSecurity ix.toNat sub.toNat data = none → s.stateRefusal ix.toNat sub.toNat = none →
      (data.length ≠ typeSize d.ty → Answers (.entryWrite q ix sub data) s fun t => t.answer = 0x0202 ∧ SettingsKept s t) ∧
      (data.length = typeSize d.ty →
        (inRange d (decodeValue d.ty data) = false ∨
          (s.touch q).valueOk ix.toNat sub.toNat (decodeValue d.ty data) = false) →
        Answers (.entryWrite q ix sub data) s fun t => t.answer = 0x0201 ∧ SettingsKept s t) ∧
      (data.length = typeSize d.ty → inRange d (decodeValue d.ty data) = true →
        (s.touch q).valueOk ix.toNat sub.toNat (decodeValue d.ty data) = true →
        (s.touch q).putEntry q ix.toNat sub.toNat (decodeValue d.ty data)
          = (s.touch q).put ix.toNat sub.toNat (decodeValue d.ty data) →
        (((s.touch q).put ix.toNat sub.toNat (decodeValue d.ty data)).consistentAfter ix.toNat sub.toNat = true →
          Answers (.entryWrite q ix sub data) s fun t =>
            t.answer = 0 ∧ t.val ix.toNat sub.toNat = decodeValue d.ty data ∧
            ∀ k, k ≠ entryKey ix.toNat sub.toNat → hostKey k = true → assocGet k t.dict = assocGet k s.dict) ∧
        (((s.touch q).put ix.toNat sub.toNat (decodeValue d.ty data)).consistentAfter ix.toNat sub.toNat = false →
          Answers (.entryWrite q ix sub data) s fun t => t.answer = 0x0203 ∧ SettingsKept s t))) ∧
  (∀ (s : State) (q : Sess) (ix : BitVec 16) (sub : Byte) (data : Bytes) (x : Session),
      s.served q = true → s.sessions[q] = some x → s.commandWrite q ix.toNat sub.toNat data = none →
      (∀ d st, findEntry ix.toNat sub.toNat = some d →
        s.accessRefusal x.role ix.toNat sub.toNat d.acc true (leNat data) = some st →
        Answers (.entryWrite q ix sub data) s fun t => t.answer = st ∧ SettingsKept s t ∧
          t = { s with answer := st, sessions := t.sessions, evtQ := t.evtQ, evtWait := t.evtWait,
                       evtLost := t.evtLost, dict := t.dict, free := t.free }) ∧
      (findEntry ix.toNat sub.toNat = none → Answers (.entryWrite q ix sub data) s fun t =>
        t = { s with answer := s.missing ix.toNat, sessions := t.sessions }))

/-- Nodes and the ring (R261 to R263, R272, R273). -/
def Obligations.NodeRows : Prop :=
  ∀ (s : State),
    (∀ m v tag x, choyrServed s.modState = true → s.openMessage m = .ok [(0x10, v), (0x11, tag)] → leAt m 4 1 = 1 →
      v.length = 16 → tag.length = 16 → leAt v 2 1 = 3 → 0 < leAt v 0 2 → leAt v 0 2 ≤ 16383 →
      s.nv.domainKey = none → leAt v 0 2 ≠ s.nat 0x1010 1 →
      x = ({ id := leAt v 0 2, minor := leAt v 3 1, identity := leAt v 8 8, heardAt := s.tick } : Node) →
      Answers (.announceReceived m) s fun t => x ∈ t.nodes ∧ (∀ y ∈ t.nodes, y.id = x.id → y = x) ∧
        ((∀ y ∈ s.nodes, y.id ≠ s.nat 0x1010 1) → t.duplicateAt = none) ∧ t.runningMinor ≤ min 2 x.minor) ∧
    (∀ m v tag k, choyrServed s.modState = true → s.openMessage m = .ok [(0x10, v), (0x11, tag)] → leAt m 4 1 = 1 →
      v.length = 16 → tag.length = 16 → leAt v 2 1 = 3 → leAt v 0 2 ≤ 16383 → s.nv.domainKey = some k →
      tag ≠ fixedText 16 (Config.gmac k (m.take 16 ++ element 0x10 v)) → Answers (.announceReceived m) s fun t =>
        t.nodes = s.nodes ∧ t.runningMinor = s.runningMinor ∧ SettingsKept s t) ∧
    (∀ (n : BitVec 14) x, s.nodes.find? (fun x => x.id == n.toNat) = some x →
      (x.heardAt + 800000000 ≤ s.tick → Answers (.nodeUnheard n) s fun t =>
        (∀ y ∈ t.nodes, y.id ≠ n.toNat) ∧ (∀ y ∈ s.nodes, y.id ≠ n.toNat → y ∈ t.nodes) ∧
        (n.toNat = s.nat 0x1010 1 → t.duplicateAt = none)) ∧
      (s.tick < x.heardAt + 800000000 → exec (.nodeUnheard n) s = .next s)) ∧
    (choyrServed s.modState = true → s.announceAt ≤ s.tick → Answers .announceSend s fun t =>
      t.announceAt = s.tick + 80000 * s.nat 0x1012 5 ∧
      (t.sent.map (·.1)).take 2 = [67, 65] ∧
      t.sent.length = s.sent.length + 2 + (if s.ringV4 = 0 then 0 else 1) + (if s.uplinkV4 = 0 then 0 else 1)) ∧
    (∀ b f, choyrServed s.modState = true → s.ringUp.getLsbD (if b then 0 else 1) = true →
      exec (.ringFrameForward b false false false f) s = .next { s with sent := ((if b then 0 else 1), f) :: s.sent }) ∧
    (∀ b toMe fromMe ptp f, (toMe || fromMe || ptp) = true → exec (.ringFrameForward b toMe fromMe ptp f) s = .next s) ∧
    (∀ b up, choyrServed s.modState = true → s.ringUp.getLsbD (b2n b) ≠ up → Answers (.ringPort b up) s fun t =>
      t.ringUp.getLsbD (b2n b) = up ∧ t.ringUp.getLsbD (1 - b2n b) = s.ringUp.getLsbD (1 - b2n b) ∧
      Recorded t 0x1105) ∧
    (∀ d, s.layer.hostLossTimer = some d → s.nat 0x1012 4 = 1 → d + 800000000 ≤ s.tick → s.openSessions = 0 →
      s.modState = .building → Answers .hostLoss s fun t => t.layer.hostLossTimer = none ∧
        (s.layer.running = true → t.modState = .building ∧ t.layer.pauseRequested = true ∧
          (s.layer.pauseRequested = false → t.layer.pauseCause = 0x0503)) ∧
        (s.layer.running = false → Transition s t .paused 0x0503))

/-- Sessions (R266, R362 to R365, R371); handshakes, lock-outs, key updates and accounts (R362 to R364). -/
def Obligations.SessionRows : Prop :=
  (∀ (s : State),
      (∀ peer minor ip up auth role account (q : Sess), choyrServed s.modState = true → s.lockedOut ip.toNat = false →
        s.sec.cryptoFailed = false → s.admission auth = some (role, account) →
        (List.finRange 16).find? (fun (q : Sess) => s.sessions[q].isNone) = some q →
        Answers (.sessionOpened peer minor ⟨ip, up⟩ auth) s fun t => ∃ x, t.sessions[q] = some x ∧
          x.peer = peer.toNat ∧ x.role = role ∧
          x.account = account ∧ x.ip = ip.toNat ∧ x.uplink = up ∧ x.minor = min minor 2 ∧ x.subs = [] ∧
            x.lastRecord = s.tick ∧
          (∀ i : Sess, i ≠ q → t.sessions[i] = s.sessions[i]) ∧ t.layer.hostLossTimer = none) ∧
      (∀ peer minor ip up auth r, choyrServed s.modState = true → s.lockedOut ip.toNat = false →
        s.sec.cryptoFailed = false → s.admission auth = some r → (∀ q : Sess, s.sessions[q].isSome = true) →
        Answers (.sessionOpened peer minor ⟨ip, up⟩ auth) s fun t => t.sessions = s.sessions ∧
          (t.sent.head?.map (·.1)) = some 32) ∧
      (∀ (q : Sess) x, s.sessions[q] = some x →
        (x.lastRecord + 80000 * s.nat 0x1012 3 ≤ s.tick → Answers (.sessionTimeout q) s fun t => t.sessions[q] = none ∧
          (∀ i : Sess, i ≠ q → t.sessions[i] = s.sessions[i]) ∧
          ((∀ i : Sess, i ≠ q → s.sessions[i] = none) → t.layer.hostLossTimer = some s.tick)) ∧
        (s.tick < x.lastRecord + 80000 * s.nat 0x1012 3 → exec (.sessionTimeout q) s = .next s))) ∧
  (∀ (s : State),
      (∀ ip cause acct, choyrServed s.modState = true → s.lockedOut ip.toNat = false →
        Answers (.handshakeFailed ip cause acct) s fun t =>
          ((s.sec.failures.filter fun x => x.1 == ip.toNat && decide (s.tick < x.2 + 4800000000)).length < 4 →
            t.sec.lockouts = s.sec.lockouts ∧ (ip.toNat, s.tick) ∈ t.sec.failures) ∧
          (4 ≤ (s.sec.failures.filter fun x => x.1 == ip.toNat && decide (s.tick < x.2 + 4800000000)).length →
            (ip.toNat, s.tick + 24000000000) ∈ t.sec.lockouts ∧ t.lockedOut ip.toNat = true) ∧
          Recorded t 0xA101) ∧
      (∀ ip cause acct, choyrServed s.modState = true → s.lockedOut ip.toNat = true →
        Answers (.handshakeFailed ip cause acct) s fun t => t.sec = s.sec ∧ t.sessions = s.sessions) ∧
      (∀ ip, Answers (.lockoutExpiry ip) s fun t =>
        t = { s with sec := { s.sec with
          lockouts := s.sec.lockouts.filter fun x => !(x.1 == ip.toNat && decide (x.2 ≤ s.tick)) } } ∧
        ((∀ x ∈ s.sec.lockouts, x.2 ≤ s.tick) → t.lockedOut ip.toNat = false)) ∧
      (∀ (q : Sess) x dir, s.sessions[q] = some x →
        (1048576 ≤ (if dir then x.sent else x.received) → Answers (.keyUpdate q dir) s fun t =>
          t.sessions[q] = some (if dir then { x with sent := 0 } else { x with received := 0 })) ∧
        ((if dir then x.sent else x.received) < 1048576 → exec (.keyUpdate q dir) s = .next s)) ∧
      (∀ (q : Sess) (n : Fin 32) (sub : Byte) data a, s.admits q (0xA100 + n.val) sub.toNat (leNat data) = true →
        (s.nv.accounts[n]).write sub.toNat data = .ok a → s.nv.certifiedMode = false →
        Answers (.accountWrite q n sub data) s fun t => t.answer = 0 ∧ t.nv.accounts[n] = a ∧
          (∀ m : Fin 32, m ≠ n → t.nv.accounts[m] = s.nv.accounts[m]) ∧
          (∀ (i : Sess) x, t.sessions[i] = some x → x.account ≠ some n) ∧
          (a.role = 2 → a.fingerprint ≠ [] → t.nv.commissioning = false) ∧ Recorded t 0xA103) ∧
      (∀ (q : Sess) (n : Fin 32) (sub : Byte) data e, s.admits q (0xA100 + n.val) sub.toNat (leNat data) = true →
        (s.nv.accounts[n]).write sub.toNat data = .error e → e ≠ 0 → Answers (.accountWrite q n sub data) s fun t =>
          t.answer = e ∧ t.nv = s.nv ∧ SettingsKept s t))

/-- Build packages (R366 to R368, R270). Firmware images, self-tests and the certified configuration (R369 to R371, R375). Tamper and zeroisation (R372): the
secrets go first, with or without main power. -/
def Obligations.SecurityRows : Prop :=
  (∀ (s : State) (q : Sess),
      (∀ off data, s.admits q 0xA010 1 0 = true → s.modState = .ready → s.pkg.state ≠ 1 → s.pkg.state ≠ 2 →
        off.toNat = s.pkg.received.length → Answers (.packageData q off false data) s fun t =>
          t.answer = 0 ∧ t.pkg = { s.pkg with state := 1, received := s.pkg.received ++ data, loadingOwner := q.val }) ∧
      (∀ off data, s.admits q 0xA010 1 0 = true → s.modState = .ready → s.pkg.state = 1 → s.pkg.loadingOwner = q.val →
        off.toNat = s.pkg.received.length →
        Answers (.packageData q off true data) s fun t => t.answer = s.packageCheck (parsePackage (s.pkg.received
          ++ data)) ∧
          t.pkg.inForce = s.pkg.inForce ∧ (s.packageCheck (parsePackage (s.pkg.received ++ data)) = 0 → t.pkg.state = 2 ∧
          t.pkg.loading = some (parsePackage (s.pkg.received ++ data)))) ∧
      (∀ off data, s.admits q 0xA010 1 0 = true → s.modState = .ready → s.pkg.state = 1 → s.pkg.loadingOwner = q.val →
        off.toNat = s.pkg.received.length → s.signatureOk (parsePackage (s.pkg.received ++ data)) = false →
        Answers (.packageData q off true data) s fun t => t.answer = 0x0501 ∧ t.pkg.inForce = s.pkg.inForce ∧
          t.pkg.loading = none ∧ Recorded t 0xA107) ∧
      (∀ off fin data, s.admits q 0xA010 1 0 = true → s.modState ≠ .ready → Answers (.packageData q off fin data) s fun t =>
        t.answer = 0x0105 ∧ t.pkg = s.pkg) ∧
      (∀ place tables p l, s.pkg.loading = some p → s.pkg.held = false → s.openAll p = some l →
        Config.sha384 l.flatten = p.digest →
        (mappedPages (p.sections.zip l)).length ≤ place.length → Answers (.packageDecrypted place tables true) s fun t =>
          t.pkg.state = 3 ∧ t.pkg.inForce = some { p with contexts := s.packageContexts p } ∧ t.pkg.loading = none ∧
          t.nv.cache = p.raw ∧ Recorded t 0xA106) ∧
      (∀ place tables ok p, s.pkg.loading = some p → s.pkg.held = false →
        Answers (.packageDecrypted place tables ok) s fun t =>
        t.pkg.loading = none ∧ (s.openAll p = none → t.pkg.status = 0x0502 ∧ t.pkg.inForce = s.pkg.inForce ∧ t.mem = s.mem))) ∧
  (∀ (s : State) (q : Sess),
      (∀ i, s.admits q 0xA030 1 0 = true → s.modState = .ready → s.nv.slots.length = 2 → s.nv.activeSlot < 2 →
        i.keyOk = true → i.sigOk = true → s.nv.rollbackFloor ≤ i.securityVersion →
        (i.release = true ∨ s.nv.certifiedMode = false) → Answers (.firmwareImage q i) s fun t =>
          t.answer = 0 ∧ t.nv.slots = s.nv.slots.set (1 - s.nv.activeSlot) i ∧
            t.nv.stagedSlot = some (1 - s.nv.activeSlot) ∧
          t.nv.activeSlot = s.nv.activeSlot) ∧
      (∀ i st, s.admits q 0xA030 1 0 = true → s.modState = .ready →
        ((i.keyOk = false ∨ i.sigOk = false) ∧ st = 0x0501 ∨
          i.keyOk = true ∧ i.sigOk = true ∧ i.securityVersion < s.nv.rollbackFloor ∧ st = 0x0203) →
        Answers (.firmwareImage q i) s fun t => t.answer = st ∧ t.nv = s.nv) ∧
      (∀ n, s.admits q 0xA030 3 1 = true → s.modState = .ready → s.nv.stagedSlot = some n →
        Answers (.firmwareActivate q 1) s fun t => t.answer = 0 ∧ t.nv.trialSlot = some n ∧ t.nv.trialStarted = false) ∧
      (s.admits q 0xA030 6 1 = true → s.modState = .ready → Answers (.selfTestRun q 1 true) s fun t =>
        t.answer = 0 ∧ t.modState = .ready ∧ t.sec = s.sec) ∧
      (s.admits q 0xA030 6 1 = true → s.modState = .ready → Answers (.selfTestRun q 1 false) s fun t =>
        t.modState = .safe ∧ t.sec.cryptoFailed = true ∧ ∀ i : Sess, t.sessions[i] = none) ∧
      (∀ n, s.modState = .building → s.sec.cryptoFailed = false → s.alone 3 = true →
        Answers (.cryptoSelftestFailure n) s fun t =>
        t.modState = .building ∧ t.sec.cryptoPending = true ∧ t.engines = s.engines ∧ ∀ i : Sess, t.sessions[i] = none) ∧
      (∀ n, s.modState = .ready → s.sec.cryptoFailed = false → s.alone 3 = true → s.supply.resetHeld = none →
        Answers (.cryptoSelftestFailure n) s fun t =>
        Transition s t .safe 0x0605 ∧ t.dark = true ∧ ∀ i : Sess, t.sessions[i] = none) ∧
      (s.admits q 0xA000 1 1 = true → s.modState = .ready → s.unmetNow = 0 → Answers (.certifiedModeWrite q 1) s fun t =>
        t.answer = 0 ∧ t.nv.certifiedMode = true) ∧
      (s.admits q 0xA000 1 1 = true → s.unmetNow ≠ 0 → Answers (.certifiedModeWrite q 1) s fun t =>
        t.answer = 0x0203 ∧ t.nv = s.nv) ∧
      (s.admits q 0xA000 1 0 = true → s.modState = .ready → Answers (.certifiedModeWrite q 0) s fun t =>
        t.answer = 0 ∧ t.nv.certifiedMode = false)) ∧
  (∀ (s : State) (q : Sess),
      (∀ (low : BitVec 2) us, low &&& s.nv.tamperEnable ≠ 0 → 50 ≤ us → s.alone 3 = true → s.supply.resetHeld = none →
        Answers (.tamper low us) s fun t =>
        t.nv.storeKey = none ∧ t.nv.operationalKey = none ∧ t.nv.packageKey = none ∧ t.nv.domainKey = none ∧
        (∀ n : Fin 32, t.nv.accounts[n].psk = []) ∧ t.nv.tamperLatched = true ∧
        (s.modState = .ready → t.modState = .safe ∧ t.sec.zeroising = some (s.tick + 160000000) ∧
          (∀ i : Sess, t.sessions[i] = none) ∧ Recorded t 0xA10A) ∧
        (s.modState = .off → t.modState = .off ∧ t.nv.tamperPending = true)) ∧
      (∀ (low : BitVec 2) us, (low &&& s.nv.tamperEnable = 0 ∨ us < 50) → s.alone 3 = true →
        Answers (.tamper low us) s fun t =>
        t = { s with sec := { s.sec with tamperInputs := low } }) ∧
      (s.sec.zeroising.isSome = true → Answers .zeroisationDone s fun t =>
        t.pkg = {} ∧ t.sec.zeroising = none ∧ t.nv.cache = [] ∧ t.nv.storeKey.isSome = true ∧
        t.nv.operationalKey.isSome = true ∧ t.nv.packageKey.isSome = true) ∧
      (s.admits q 0xA020 3 1 = true → Answers (.tamperAck q 1 0) s fun t => t.answer = 0 ∧ t.nv.tamperLatched = false) ∧
      (∀ low, s.admits q 0xA020 3 1 = true → low ≠ 0 → Answers (.tamperAck q 1 low) s fun t =>
        t.answer = 0x0301 ∧ t.nv = s.nv))

/-- Stored profiles (R282 to R285). -/
def Obligations.ProfileRows : Prop :=
  ∀ (s : State) (q : Sess),
    (∀ v : Byte, s.admits q 0x1F00 4 v.toNat = true → storeAllowed s.modState = true → v.toNat ≤ 3 → s.profileBusy = 0 →
      Answers (.storeProfile q v) s fun t => t.answer = 0 ∧ t.profileBusy = 1 ∧ t.profileTarget = v.toNat ∧
        t.nv = s.nv ∧ SettingsKept s t) ∧
    (∀ v : Byte, s.admits q 0x1F00 4 v.toNat = true → s.modState = .building → Answers (.storeProfile q v) s fun t =>
      t.answer = 0x0302 ∧ t.profileBusy = s.profileBusy) ∧
    (s.profileBusy = 1 → Answers (.profileStored [true, true]) s fun t => t.profileBusy = 0 ∧
      (∃ p, assocGet s.profileTarget t.nv.profileA = some p ∧ assocGet s.profileTarget t.nv.profileB = some p ∧
        p = s.toProfile (((s.profile s.profileTarget).map (·.generation)).getD 0 + 1)) ∧
      Recorded t 0x1108) ∧
    (∀ (v : Byte) p, s.admits q 0x1F00 3 v.toNat = true → s.modState = .ready → s.profileBusy = 0 → v.toNat ≤ 3 →
      s.profile v.toNat = some p → Answers (.switchProfile q v) s fun t => t.answer = 0 ∧
        t.activeProfile = v.toNat ∧ t.modState = .ready ∧ t.nv.profileA = s.nv.profileA ∧ Recorded t 0x1106) ∧
    (∀ v : Byte, s.admits q 0x1F00 3 v.toNat = true → s.modState = .ready → s.profileBusy = 0 → v.toNat ≤ 3 →
      s.profile v.toNat = none → Answers (.switchProfile q v) s fun t => t.answer = 0x0203 ∧
        t.activeProfile = s.activeProfile ∧ SettingsKept s t) ∧
    (s.admits q 0x1F00 7 1 = true → s.modState = .ready → s.profileBusy = 0 → Answers (.loadDefaults q 1) s fun t =>
      t.answer = 0 ∧ t.activeProfile = 0xFE ∧ t.nv.profileA = s.nv.profileA ∧ t.nv.profileB = s.nv.profileB ∧
      Recorded t 0x1106)

/-- Start-up (R25, R305, R306, R349, R356, R357, R369). -/
def Obligations.StartupRows : Prop :=
  ∀ (s : State),
    (∀ a b v, s.modState = .off → 20400 < max a b → 2000 ≤ v → Answers (.powerOn a b v) s fun t =>
      Transition s t .reset 0 ∧ t.nv.powerCycles = s.nv.powerCycles + 1 ∧
      t.supply.resetCause = (if s.nv.endCause = 2 ∨ s.nv.endCause = 9 then s.nv.endCause else 1) ∧
      t.nv.storeKey = s.nv.storeKey) ∧
    (∀ a b v, s.modState = .off → 20400 < max a b → v < 2000 → Answers (.powerOn a b v) s fun t =>
      t.modState = .reset ∧ t.supply.resetCause = 1 ∧ t.nv.storeKey = none ∧ t.nv.domainKey = none ∧
      t.nv.tamperEnable = 0 ∧ Recorded t 0x9108) ∧
    (∀ b sel, s.modState = .reset → 36000 ≤ b → s.supply.pllLocked = true → s.supply.inputsCut = false →
      Answers (.resetRelease b true sel) s fun t => Transition s t .boot 0 ∧
        t.profileTarget = (if s.nv.nextProfile < 4 then s.nv.nextProfile else sel.toNat) ∧ t.nv.nextProfile = 0xFF) ∧
    (∀ b hi sel, s.modState = .reset → b < 36000 ∨ hi = false → Answers (.resetRelease b hi sel) s fun t =>
      t.modState = .reset) ∧
    (∀ slots recOk m, s.modState = .boot → s.nv.trialSlot = none → s.nv.activeSlot ≤ 1 →
      (slots[s.nv.activeSlot]?).any s.accepts = true → Answers (.bootAuthenticated slots recOk 3 m) s fun t =>
        Transition s t .selftest 0 ∧ t.sec.slot = s.nv.activeSlot ∧ t.mem = [] ∧ t.poisoned = [] ∧
        ((∀ i < 4, 150 ≤ m.getD i 0) → ∀ c : ChanId, t.dram[c].trained = 1)) ∧
    (∀ slots m tr, s.modState = .boot → s.nv.trialSlot = none → (∀ i ∈ slots, s.accepts i = false) →
      s.supply.resetHeld = none → Answers (.bootAuthenticated slots true tr m) s fun t => t.recovery = true ∧
        Transition s t .safe 0x0501) ∧
    (∀ slots m tr, s.modState = .boot → s.nv.trialSlot = none → (∀ i ∈ slots, s.accepts i = false) →
      Answers (.bootAuthenticated slots false tr m) s fun t => t.modState = .boot ∧ t.mem = s.mem) ∧
    (∀ r n p, s.modState = .selftest → r.gateOffOk = true → r.cryptoOk = true → r.entropyOk = true →
      s.sec.cryptoFailed = false → (∀ c : ChanId, s.dram[c].trained = 1) → r.moduleFactory = true →
      s.nv.tamperPending = false → s.profileTarget = n → n < 4 → s.chosenProfile r n = some p →
      Answers (.selftestDone r) s fun t =>
        Transition s t .ready 0 ∧ t.activeProfile = n ∧ t.nv.storeKey.isSome = true ∧ t.nv.packageKey.isSome = true) ∧
    (∀ r, s.modState = .selftest → r.gateOffOk = false → s.nv.tamperPending = false →
      s.supply.resetHeld = none → Answers (.selftestDone r) s fun t =>
      t.modState = .safe ∧ .selftest ∈ t.safeCauses)

/-- Resets, VIO and output overloads (R9, R12, R346, R355, R356, R384). -/
def Obligations.ResetRows : Prop :=
  ∀ (s : State),
    (∀ ns, s.alone 1 = true → resettable s.modState = true → 1000 ≤ ns → s.supply.copierPending = none →
      s.modState ≠ .building →
      s.modState ≠ .paused → Answers (.resetL ns) s fun t => Transition s t .reset 0 ∧ t.supply.resetCause = 4 ∧
        t.dark = true ∧ t.mem = [] ∧ t.nv.resume = s.nv.resume ∧ t.tick = s.tick) ∧
    (∀ ns, s.alone 1 = true → s.modState = .building → 1000 ≤ ns → s.supply.copierPending = none →
      Answers (.resetL ns) s fun t =>
      t.modState = .building ∧ t.supply.resetHeld = some 4 ∧ t.supply.copierUntil = some (s.tick + 320000) ∧
        t.dark = true) ∧
    (∀ ns, s.alone 1 = true → ns < 1000 → exec (.resetL ns) s = .next s) ∧
    (∀ r, s.supply.copierPending = some r → (∀ code, s.supply.resetHeld = some code → Answers .resumeCopy s fun t =>
        t.modState = .reset ∧ t.nv.resume = some r ∧ t.supply.resetCause = code) ∧
      (s.supply.resetHeld = none → Answers .resumeCopy s fun t => t.modState = s.modState ∧ t.nv.resume = some r ∧
        t.supply.copierPending = none)) ∧
    (s.alone 1 = true → resettable s.modState = true → 2 ≤ s.supply.failedCores → s.supply.copierPending = none →
      s.modState ≠ .building → s.modState ≠ .paused → Answers .watchdog s fun t =>
        t.modState = .reset ∧ t.supply.resetCause = 8 ∧ t.dark = true) ∧
    (s.modState = .ready → s.supply.failedCores = 0 → s.supply.firstFault = none →
      Answers .firmwareFailover s fun t =>
      t.modState = .ready ∧ t.supply.failedCores = 1 ∧ t.supply.bothCoresFailed = false ∧
      t.evtQ.length + t.evtWait.length = s.evtQ.length + s.evtWait.length + 1) ∧
    (∀ k, s.modState = .building → s.supply.failedCores = 0 → s.supply.firstFault = some k → k ≠ 4 →
      s.supply.resetHeld = none → Answers .firmwareFailover s fun t => Transition s t .safe 0x0605 ∧ t.dark = true ∧
        .outsideContinuity ∈ t.safeCauses) ∧
    (∀ ns ref, s.alone 1 = true → s.modState ≠ .off → s.modState ≠ .thermalOff → 2000 ≤ ns →
      Answers (.clockMonitor ns ref false) s fun t => t.modState = .reset ∧ t.supply.resetCause = 5 ∧
        t.supply.pllLocked = false ∧ t.dark = true ∧ (s.inBuild = true → t.supply.copierPending.isSome = true)) ∧
    (s.supply.pllLocked = false → Answers .pllLock s fun t =>
      t.tick = 0 ∧ t.supply.pllLocked = true ∧ t.modState = s.modState ∧ t.nv = s.nv) ∧
    (s.supply.pllLocked = true → exec .pllLock s = .next s) ∧
    (∀ mv, mv < 18000 → s.supply.vioGood = true → s.modState ≠ .off → Answers (.vioLow mv) s fun t =>
      t.supply.vioGood = false ∧ t.supply.vioMv = mv ∧ Recorded t 0x910A ∧
      ∀ a : AxisId, t.brakeEngaged a = true) ∧
    (∀ mv, 18000 ≤ mv → exec (.vioRestored mv) s
      = .next { s with supply := { s.supply with vioMv := mv, vioGood := true } }) ∧
    (∀ o : Fin 20, s.modState ≠ .off → Answers (.outputOverload o) s fun t => t.overload.getLsbD o.val = true ∧
      (∀ i, i ≠ o.val → t.overload.getLsbD i = s.overload.getLsbD i) ∧ Recorded t 0x9109 ∧
      (∀ p : LaserId, p.val = o.val → t.lasers[p].overloadOff = true) ∧
      (∀ a : AxisId, a.val + 12 = o.val → t.brakeEngaged a = true) ∧
      ∀ a : AxisId, a.val + 16 = o.val → t.axes[a].encPwrOff = true)

/-- Setting and following device time (R290, R292 to R298). -/
def Obligations.TimeRows : Prop :=
  ∀ (s : State),
    (∀ p o c i new off, off = s.ptpOffset p o c i → s.ptpPort p = true → s.noStep = false →
      new = true ∨ (s.nat 0x8000 7 : Int) < off.natAbs → off.natAbs ≤ 2147483647 → s.time.status ≠ 0 →
      0 ≤ (s.time.now : Int) - off * nsUnit → Answers (.ptpSync p o ⟨c, i⟩ new true) s fun t => t.time.status = 2 ∧
        (t.time.now : Int) = s.time.now - off * nsUnit ∧ t.time.offset = off ∧
        t.time.syncTimer = some (s.tick + 80000 * s.nat 0x8000 0x0A)) ∧
    (∀ p o c i off, off = s.ptpOffset p o c i → s.ptpPort p = true → s.time.firstOffset = false →
      (off.natAbs : Int) ≤ s.nat 0x8000 7 → off.natAbs ≤ s.nat 0x8000 9 → s.time.status ≠ 0 →
      Answers (.ptpSync p o ⟨c, i⟩ false true) s fun t =>
        t.time.now = s.time.now ∧ t.time.status = (if 15 ≤ s.time.goodSyncs then 3 else 2) ∧
        t.time.adjNext.natAbs ≤ 500 * 5 * nsUnit / 1000000) ∧
    (∀ p o x new, exec (.ptpSync p o x new false) s = .next (s.bump 0x8001 9)) ∧
    (∀ p t1 t4 turn c, s.ptpPort p = true → s.peerDelay p = true →
      Answers (.ptpDelayMessage p (.pdelayResp t1 t4 turn) c true) s fun t =>
        t.time.ports[p].meanLinkDelay = min (roundDiv ((s.ingressAt p t4 - s.egressAt p t1) - turn * 65536
          - (c + s.asymmetry p)) (2 * 65536)).toNat 4294967295 ∧ t.time.now = s.time.now) ∧
    (∀ p t3 t4 c, s.ptpPort p = true → s.peerDelay p = false →
      Answers (.ptpDelayMessage p (.delayResp t3 t4) c true) s fun t =>
        t.time.pathDelay = min (roundDiv ((s.time.lastSync.2 - s.time.lastSync.1)
          + ((t4 : Int) * 65536 - s.egressAt p t3) - c) (2 * 65536)).toNat 4294967295 ∧ t.time.ports = s.time.ports) ∧
    (∀ p t2 t3 c, s.ptpPort p = true → s.peerDelay p = true →
      Answers (.ptpDelayMessage p (.pdelayReq t2 t3) c true) s fun t => t.time = s.time ∧
        t.sent = (p.val, s.ptpMessage p 3 (c + (s.egressAt p t3 - s.ingressAt p t2)) 0) :: s.sent) ∧
    (∀ p g n u, s.ptpPort p = true → Answers (.ptpAnnounce p g n u true [] true) s fun t =>
      t.time.grandmaster = g ∧ t.time.stepsRemoved = n ∧ t.time.utcOffset = u ∧
      t.time.ports[p].receiptTimer = some (s.tick + s.announceTicks p) ∧
      (s.time.grandmaster ≠ g → t.time.firstOffset = true ∧ Recorded t 0x8103)) ∧
    (∀ (p : Fin 2) src (n : BitVec 16) res (c : Int), s.time.role = 3 → s.time.forwarded = [] → s.time.twoSteps = [] →
      res ≤ 10000000 * 65536 →
      (Answers (.ptpForward p src n ⟨1, false⟩ res c) s fun t =>
        t.sent = (1 - p.val, leBytes 8 (unsigned 64 (c + res))) :: s.sent ∧ t.time = s.time) ∧
      (s.time.ports[0].mechanism ≠ 2 → Answers (.ptpForward p src n ⟨0, false⟩ res c) s fun t =>
        t.sent = (1 - p.val, leBytes 8 (unsigned 64 (c + res))) :: s.sent ∧
        t.time.forwarded = [(src, n.toNat, 0, s.tick)]) ∧
      (s.time.ports[0].mechanism ≠ 2 → Answers (.ptpForward p src n ⟨0, true⟩ res c) s fun t =>
        t.sent = (1 - p.val, leBytes 8 (unsigned 64 c)) :: s.sent ∧ t.time.twoSteps = [(src, n.toNat, (res : Int))])) ∧
    (∀ (p : Fin 2) src (n : BitVec 16) res (c x : Int), s.time.role = 3 → s.time.forwarded = [] →
      s.time.twoSteps = [(src, n.toNat, x)] → res ≤ 10000000 * 65536 → Answers (.ptpForward p src n ⟨8,
        false⟩ res c) s fun t =>
        t.sent = (1 - p.val, leBytes 8 (unsigned 64 (c + x))) :: s.sent ∧ t.time.twoSteps = [] ∧
        t.time.forwarded = [(src, n.toNat, 8, s.tick)]) ∧
    (∀ (p : Fin 2) src (n : BitVec 16) k res (c : Int), s.time.role = 3 → 10000000 * 65536 < res →
      exec (.ptpForward p src n k res c) s = .next (s.bump 0x8001 9)) ∧
    (∀ p st d, s.time.ports[p].receiptTimer = some d → d ≤ s.tick → Answers (.announceReceiptTimeout p [(p,
      st)]) s fun t =>
      t.time.ports[p].receiptTimer = none ∧ t.time.ports[p].state = st) ∧
    (∀ d, s.time.syncTimer = some d → d ≤ s.tick → Answers .syncLoss s fun t => t.time.syncTimer = none ∧
      t.time.now = s.time.now ∧ t.time.status = (if s.time.status = 3 then 4 else s.time.status))

/-- Seconds, anchors, TIME_PPS, the oscillator trim and the latches (R11, R291, R299, R300, R332). -/
def Obligations.TimerRows : Prop :=
  ∀ (s : State) (q : Sess),
    (s.time.status ≠ 0 → s.time.lastSecond < s.time.now / secUnit → Answers .secondBoundary s fun t =>
      t.time.lastSecond = s.time.now / secUnit ∧ t.time.prevAnchor = s.time.anchor ∧
      t.time.anchor.map (fun a => (a.seconds, a.nanos)) = some (s.time.now / secUnit, 0) ∧
      (s.time.skipPulse = true → t.time.skipPulse = false ∧ t.time.ppsHigh = s.time.ppsHigh) ∧
      (s.time.skipPulse = false → s.ppsOn = true → t.time.ppsHigh = true ∧
        t.time.ppsUntil = some (s.tick + 80000 * s.nat 0x8020 2))) ∧
    (s.time.status = 0 → s.time.tickAnchorAt + 80000000 ≤ s.tick → Answers .tickAnchor s fun t =>
      t.time.tickAnchorAt = s.tick ∧ ∃ r ∈ t.evtQ ++ t.evtWait, r.type = 0xB001 ∧
        r.body.take 5 = [8 * (s.tick : Int), 0, 0, 0, 3]) ∧
    (∀ d, s.time.ppsUntil = some d → d ≤ s.tick → Answers .ppsEnd s fun t =>
      t = { s with time := { s.time with ppsHigh := false, ppsUntil := none } }) ∧
    (s.supply.excluded.getLsbD 18 = false → -50000 ≤ s.supply.oscTrim → s.supply.oscTrim ≤ 50000 →
      Answers .oscTrim s fun t => (t.supply.oscTrim - s.supply.oscTrim).natAbs ≤ 10 ∧
        -50000 ≤ t.supply.oscTrim ∧ t.supply.oscTrim ≤ 50000) ∧
    (s.supply.excluded.getLsbD 18 = true → exec .oscTrim s = .next s) ∧
    (∀ (i : Fin 2) lv, s.time.status ≠ 0 → s.nat (0x8021 + i.val) 1 = (if lv then 1 else 2) → s.time.latches.length = 2 →
      (s.time.latches.getD i.val []).length < 16 → Answers (.latchEdge i lv) s fun t =>
        t.time.latches = s.time.latches.set i.val (s.time.latches.getD i.val [] ++ [(s.time.now, lv)])) ∧
    (∀ (i : Fin 2) lv, s.time.status ≠ 0 → s.nat (0x8021 + i.val) 1 = 3 →
      16 ≤ (s.time.latches.getD i.val []).length → Answers (.latchEdge i lv) s fun t =>
        t.time.latches = s.time.latches ∧
        (s.nat (0x8021 + i.val) 3 < 4294967295 → t.nat (0x8021 + i.val) 3 = s.nat (0x8021 + i.val) 3 + 1)) ∧
    (∀ (i : Fin 2) x, s.served q = true → s.sessions[q] = some x → s.modState ≠ .selftest →
      Answers (.latchDataRead q i) s fun t => t.answer = 0 ∧
        t.answerData = (s.time.latches.getD i.val []).flatMap latchBytes ∧ t.time.latches = s.time.latches.set i.val [])

/-- Refresh and the tables of activates (R306, R308 to R310); marks, scrub and ages (R312, R313, R315). -/
def Obligations.DramRows : Prop :=
  (∀ (s : State) (c : ChanId), s.memoryOn c = true →
      (s.dram[c].postponed = 0 → s.dram[c].interval = 7800 → s.tick = s.dram[c].lastRefresh + 624 →
        (∀ r ∈ s.dram[c].queue, r.cls ≠ 0) → Answers (.refresh c) s fun t =>
          t.dram[c].refreshes = s.dram[c].refreshes + 1 ∧ t.dram[c].postponed = 0 ∧ t.dram[c].busyUntil = s.tick + 21 ∧
          t.dram[c].openRows = [] ∧ t.dram[c].lastRefresh = s.tick ∧ t.mem = s.mem) ∧
      (s.dram[c].postponed = 0 → s.dram[c].interval = 7800 → s.tick = s.dram[c].lastRefresh + 624 →
        (∃ r ∈ s.dram[c].queue, r.cls = 0) → Answers (.refresh c) s fun t =>
          t.dram[c].refreshes = s.dram[c].refreshes ∧ t.dram[c].postponed = 1) ∧
      (s.dram[c].postponed = 5 → s.tick = s.dram[c].lastRefresh → Answers (.refresh c) s fun t =>
        t.dram[c].refreshes = s.dram[c].refreshes + 1 ∧ t.dram[c].postponed = 4) ∧
      (s.dram[c].zqAt + 10240000 ≤ s.tick → Answers (.zqShort c) s fun t => t.dram[c].zqAt = s.tick ∧ t.mem = s.mem) ∧
      (8192 ≤ s.dram[c].refreshes → Answers (.refreshWindowEnd c) s fun t =>
        t.dram[c].refreshes = 0 ∧ t.dram[c].counters = [] ∧ t.mem = s.mem) ∧
      (∀ (b : Fin 16) (row : BitVec 16) n, s.dram[c].counters = [(b.val, row.toNat, n)] → s.nat 0xC000 4 ≤ n →
        s.nat 0xC000 5 = 1 → s.dram[c].openRows = [] → 0 < row.toNat → row.toNat < 65535 →
        s.nat (0xC010 + c.val) 9 < 4294967295 → Answers (.neighbourRefresh c b row) s fun t =>
          t.dram[c].table b.val = [(row.toNat, 0), (row.toNat - 1, 1), (row.toNat + 1, 1)] ∧
          t.nat (0xC010 + c.val) 9 = s.nat (0xC010 + c.val) 9 + 1 ∧ t.mem = s.mem)) ∧
  (∀ (s : State) (q : Sess) (c : ChanId),
      (s.memoryOn c = true → s.modState ≠ .holdup →
        s.poisoned.contains (lineOf s.mapOrder c.val s.dram[c].scrubLine) = false →
        s.dram[c].scrubLine + 1 < channelLines → Answers (.patrolScrub c []) s fun t =>
          t.dram[c].scrubLine = s.dram[c].scrubLine + 1 ∧ t.mem = s.mem ∧ t.poisoned = s.poisoned) ∧
      (∀ e, s.memoryOn c = true → s.modState ≠ .holdup →
        s.poisoned.contains (lineOf s.mapOrder c.val s.dram[c].scrubLine) = true →
        s.dram[c].scrubLine + 1 < channelLines → Answers (.patrolScrub c e) s fun t =>
          t.dram[c].scrubBad = s.dram[c].scrubBad + 1 ∧ t.mem = s.mem) ∧
      (∀ d : Fin 18, s.dram[c].marked = none → s.nat 0xC000 6 ≤ s.errorLines c d.val →
        Answers (.deviceMarked c d) s fun t =>
        t.dram[c].marked = some d ∧ t.nv.marked[c] = some d ∧ t.nat (0xC010 + c.val) 8 = d.val ∧
        Recorded t 0xC104) ∧
      (s.admits q (0xC010 + c.val) 8 255 = true → Answers (.markedDeviceClear q c 0xFF) s fun t =>
        t.answer = 0 ∧ t.dram[c].marked = none ∧ t.nv.marked[c] = none ∧ t.nat (0xC010 + c.val) 8 = 0xFF) ∧
      (∀ v : Byte, v ≠ 0xFF → s.admits q (0xC010 + c.val) 8 v.toNat = true → Answers (.markedDeviceClear q c v) s fun t =>
        t.answer = 0x0201 ∧ t.dram = s.dram ∧ t.nv = s.nv) ∧
      (Answers (.ageRaise c) s fun t => t.dram[c].queue = s.dram[c].queue.map (fun r => r.aged s.ageTicks s.tick) ∧
        ∀ r ∈ s.dram[c].queue, (r.aged s.ageTicks s.tick).cls = r.cls ∨
          (r.cls = 2 ∧ (r.aged s.ageTicks s.tick).cls = 1) ∨ (3 ≤ r.cls ∧ (r.aged s.ageTicks s.tick).cls = r.cls - 1)))

/-- A request to an idle channel is served at once: a read answers the line as it stands, a write of a line is read back
(R304, R305, R314 to R316). An address beyond the 16 GiB does not exist. -/
def Obligations.MemoryRequestRow : Prop :=
  ∀ (s : State) (c : ChanId) (m : Requester) (rt : Bool) (a : Nat),
    (∀ w e, memSize ≤ a → exec (.memoryRequest c m rt a w e) s = .fault (.noSuchAddress a)) ∧
    (a < memSize → a % 64 = 0 → (mapAddress s.mapOrder a).1 = c.val → s.memoryOn c = true → s.modState ≠ .holdup →
      s.dram[c].queue = [] → s.dram[c].busyUntil ≤ s.tick → s.poisoned.contains (a / 64) = false →
      (Answers (.memoryRequest c m rt a none []) s fun t =>
        t.dram[c].response = (0, memReadN s.mem a 64) ∧ t.mem = s.mem ∧ t.dram[c].queue = []) ∧
      (∀ b e, b.length = 64 → Answers (.memoryRequest c m rt a (some b) e) s fun t =>
        t.dram[c].response.1 = 0 ∧ t.mem = memWriteN s.mem a b ∧ (Memory.wf s.mem = true → memReadN t.mem a 64 = b ∧
          ∀ x, (x < a ∨ a + 64 ≤ x) → memRead t.mem x = memRead s.mem x))) ∧
    (a < memSize → a % 64 = 0 → (mapAddress s.mapOrder a).1 = c.val → s.memoryOn c = true → s.modState ≠ .holdup →
      s.dram[c].queue = [] → s.dram[c].busyUntil ≤ s.tick → s.poisoned.contains (a / 64) = true →
      m = .unit .fetch → Answers (.memoryRequest c m rt a none []) s fun t =>
        t.dram[c].response = (0x0601, []) ∧ t.poisoned = s.poisoned ∧ Recorded t 0xC103) ∧
    (∀ w e, a < memSize → (mapAddress s.mapOrder a).1 = c.val → s.memoryOn c = false →
      Answers (.memoryRequest c m rt a w e) s fun t => t.dram[c].response = (0x0403, []) ∧ t.mem = s.mem)

/-- The address map of every order is one to one on the lines of the 16 GiB: channel, bank, row and column tell the
address (R307). -/
def Obligations.AddressMapInjective : Prop :=
  ∀ order ≤ 3, ∀ a b, a < memSize → b < memSize → a % 64 = 0 → b % 64 = 0 →
    mapAddress order a = mapAddress order b → mapColumn order a = mapColumn order b → a = b

/-- Translation and its faults (R163 to R166). -/
def Obligations.TranslationRows : Prop :=
  ∀ (s : State) (sp : SpaceId),
    (∀ m inst (va : BitVec 48) w pr, s.tlb = [] → s.sharedTlb = [] →
      walk s.mem s.tableBase[sp] va.toNat w (masterCode m == 2) = .error (1, 1) → s.faults = [] → s.faultWait = [] →
      Answers (.translationFault m inst sp va w pr) s fun t => t.mem = s.mem ∧
        t.faults.map (fun f => (f.master, f.inst, f.space, f.address, f.write, f.level, f.cause))
          = [(masterCode m, inst.toNat, sp.val, va.toNat, w, 1, 1)]) ∧
    (∀ page, Answers (.tlbInvalidate sp page) s fun t => t.mem = s.mem ∧
      (∀ x ∈ t.tlb, x.2.space = sp.val → x.2.vpage ≠ page.toNat) ∧
      (∀ x ∈ t.sharedTlb, x.space = sp.val → x.vpage ≠ page.toNat) ∧
      ∀ x ∈ s.tlb, (x.2.space ≠ sp.val ∨ x.2.vpage ≠ page.toNat) → x ∈ t.tlb) ∧
    (∀ page a v, a < memSize → a % 8 = 0 → s.faults = [] → Answers (.faultResolved sp page [(a, v)]) s fun t =>
      t.mem = memWriteN s.mem a (leBytes 8 v.toNat)) ∧
    (∀ (page : BitVec 32) f, s.faults = [f] → s.faultWait = [] → f.master = 9 → f.space = sp.val →
      f.address / 65536 = page.toNat →
      (∃ e, walk s.mem s.tableBase[sp] f.address f.write false = .ok e) → s.pkg.inForce = none →
      Answers (.faultResolved sp page []) s fun t => t.faults = [] ∧
        Recorded t 0xC302 ∧
        ∀ j, s.dma.find? (fun j => j.space == sp.val) = some j →
          t.dma.find? (fun j => j.space == sp.val) = some { j with held := false }) ∧
    (∀ f, s.faults = [f] → s.faultWait = [] → f.master = 9 → f.deadline ≤ s.tick →
      Answers .faultTimeout s fun t => t.faults = [] ∧
      Recorded t 0xC303 ∧
      ∀ j, s.dma.find? (fun j => j.space == f.space) = some j →
        t.nat 0x3D10 2 = j.tag ∧ t.nat 0x3D10 3 = 0x0403 ∧ t.dma = s.dma.erase j)

/-- DMA and compression jobs (R167, R168, R322, R328). -/
def Obligations.JobRows : Prop :=
  ∀ (s : State) (q : Sess),
    (∀ d, s.admits q 0x3D10 1 0 = true → d.length = 32 → leAt d 0x14 1 = 1 → leAt d 0x15 1 ≤ 63 →
      1 ≤ leAt d 0x10 4 → leAt d 0x10 4 ≤ 268435456 →
      overlaps (leAt d 0 6) (leAt d 0x10 4) (leAt d 8 6) (leAt d 0x10 4) = false →
      (s.dma.filter fun x => x.space == leAt d 0x15 1).length < 64 → Answers (.dmaSubmit q d) s fun t =>
        t.answer = 0 ∧ t.dma = s.dma ++ [parseDma d] ∧ t.mem = s.mem) ∧
    (∀ d, s.admits q 0x3D10 1 0 = true → d.length = 32 → leAt d 0x14 1 ≠ 1 → leAt d 0x14 1 ≠ 2 →
      Answers (.dmaSubmit q d) s fun t => t.answer = 0x0201 ∧ t.dma = s.dma) ∧
    (∀ (sp : SpaceId) j t' pa, s.dma = [j] → j.space = sp.val → j.held = false → flashAllowed s.modState = true →
      j.op = 2 → j.length - j.progress ≤ 4096 → j.progress < j.length →
      s.writeRange .dma j.space 3 (j.destination + j.progress) (fillBytes j.source (j.length - j.progress)) = (t',
        .ok pa) →
      Answers (.dmaChunk sp) s fun t => t.mem = t'.mem ∧ t.nat 0x3D10 2 = j.tag ∧ t.nat 0x3D10 3 = 0) ∧
    (∀ d, s.admits q 0xD000 1 0 = true → d.length = 48 → jobFieldsOk d = true →
      (leAt d 0x1D 1 = 1 ∨ highEffort s.modState = true) → jobBound (leAt d 0x10 4) (leAt d 0x18 4) ≤ leAt d 0x14 4 →
      overlaps (leAt d 0 6) (leAt d 0x10 4) (leAt d 8 6) (leAt d 0x14 4) = false → s.jobs.length < 16 →
      Answers (.compressSubmit q d) s fun t => t.answer = 0 ∧ t.jobs = s.jobs ++ [parseJob d] ∧ t.mem = s.mem) ∧
    (∀ d, s.admits q 0xD000 1 0 = true → d.length = 48 → jobFieldsOk d = true → leAt d 0x1D 1 = 1 →
      leAt d 0x14 4 < jobBound (leAt d 0x10 4) (leAt d 0x18 4) → Answers (.compressSubmit q d) s fun t =>
        t.answer = 0x0203 ∧ t.jobs = s.jobs) ∧
    (∀ (tag : BitVec 32) j, s.admits q 0xD000 5 tag.toNat = true → s.jobs.find? (fun j => j.tag == tag.toNat) = some j →
      Answers (.compressCancel q tag) s fun t => t.answer = 0 ∧ t.jobs = s.jobs.erase j ∧
        t.nat 0xD000 3 = tag.toNat ∧ t.nat 0xD000 4 = 0x0301 ∧ t.mem = s.mem) ∧
    (∀ j b t' u w, s.jobs = [j] → j.held = false → jobsRun s.modState = true → j.mode = 3 → j.progress = 0 →
      0 < j.sourceLength → j.sourceLength ≤ j.blockSize → b.length = j.sourceLength →
      s.readRange .compression j.space 3 j.source j.sourceLength = (t', .ok b) →
      selfCheck (storedForm b) b = true →
      t'.writeRange .compression j.space 3 (j.destination + j.outBytes) (chunkBytes (chunkFlags false true 0) b (storedForm b))
        = (u, .ok w) → Answers .compressChunk s fun t => t.mem = u.mem ∧ t.jobs = [] ∧
        t.nat 0xD000 3 = j.tag ∧ t.nat 0xD000 4 = 0)

/-- The event recorder (R331, R333, R334, R337, R338). -/
def Obligations.RecorderRows : Prop :=
  ∀ (s : State) (q : Sess),
    (∀ r l, s.evtQ = r :: l → s.recorderOn = true → recordsSize s.nv.staging + recordLen r.type ≤ stagingSize →
      Answers .eventRecordTaken s fun t => t.evtQ = l ∧ t.nv.newest = s.nv.newest + 1 ∧
        ∃ x, t.nv.staging = s.nv.staging ++ [x] ∧ x.sequence = s.nv.newest + 1 ∧ x.evt = r ∧
          x.length = recordLen r.type) ∧
    (∀ b, s.mayProgram = true → pageRoom ≤ recordsSize s.nv.staging → s.nv.ring.getLast? = some b → b.pages < 15 →
      Answers (.pageProgram true) s fun t => t.nv.staging = (pageSplit pageRoom s.nv.staging).2 ∧
        t.nv.ring.getLast? = some { b with
          records := b.records ++ (pageSplit pageRoom s.nv.staging).1, pages := b.pages + 1, programFails := 0 } ∧
        t.nv.ring.length = s.nv.ring.length) ∧
    (∀ b, s.mayProgram = true → s.flushDue = true → s.nv.ring.getLast? = some b → b.pages = 15 →
      Answers (.flushInterval true) s fun t => t.nv.staging = (pageSplit pageRoom s.nv.staging).2 ∧
        t.nv.ring.length = s.nv.ring.length + 1 ∧ t.nv.ring.getLast?.map (·.slot) = some (nextSlot b.slot)) ∧
    (∀ b c l, flashAllowed s.modState = true → s.nv.deferred = [] → s.nv.eraseDue = true → s.nv.ring = b :: c :: l →
      s.defers b = false → b.records ≠ [] → Answers (.ringBlockErase true) s fun t => t.nv.ring = c :: l ∧
        t.nv.eraseDue = false ∧ t.nv.oldest = b.last + 1 ∧ t.nv.staging = s.nv.staging) ∧
    (∀ x, s.admits q 0xB010 4 1 = true → s.sessions[q] = some x → x.snap.isOpen = false → s.openSnaps.length < 4 →
      x.snap.fromSeq ≤ x.snap.toSeq → x.snap.fromSeq ≤ s.nv.newest → Answers (.snapOpen q 1) s fun t => t.answer = 0 ∧
        ∃ y, t.sessions[q] = some y ∧ y.snap.status = 1 ∧ y.snap.first = max x.snap.fromSeq s.nv.oldest ∧
          y.snap.last = min x.snap.toSeq s.nv.newest ∧ y.snap.openedAt = s.tick) ∧
    (∀ x, s.admits q 0xB010 4 1 = true → s.sessions[q] = some x → x.snap.isOpen = false → 4 ≤ s.openSnaps.length →
      Answers (.snapOpen q 1) s fun t => t.answer = 0x0402 ∧ ∃ y, t.sessions[q] = some y ∧ y.snap = x.snap) ∧
    (∀ x, s.admits q 0xB010 4 0 = true → s.sessions[q] = some x → Answers (.snapClose q 0) s fun t =>
      t.answer = 0 ∧ ∃ y, t.sessions[q] = some y ∧ y.snap = { x.snap with status := 0 }) ∧
    (∀ x, s.sessions[q] = some x → x.snap.isOpen = true → x.snap.openedAt + 80000000 * s.nat 0xB010 9 ≤ s.tick →
      Answers (.snapHoldExpiry q) s fun t => t.sessions[q] = some { x with snap := { x.snap with status := 3 } }) ∧
    (∀ r, s.mirrorHeld = false → s.mirrorNext ≠ 0 → s.memoryOn 0 = true → s.memoryOn 1 = true →
      flashAllowed s.modState = true → s.allRecords.find? (fun r => r.sequence == s.mirrorNext) = some r →
      recordsSize (s.mirror ++ [r]) ≤ s.nv.mirrorSize * 1048576 → Answers .mirrorWrite s fun t =>
        t.mirror = s.mirror ++ [r] ∧ t.mirrorNext = s.mirrorNext + 1 ∧ t.nv = s.nv)

/-- Supply and hold-up (R341 to R346). -/
def Obligations.SupplyRows : Prop :=
  ∀ (s : State) (q : Sess),
    (∀ a b us, s.modState ≠ .off → max a b < 19500 → 100 ≤ us → s.supply.pfWarn = false →
      Answers (.pfWarn a b us) s fun t =>
      t.supply.pfWarn = true ∧ t.modState = s.modState ∧ Recorded t 0x9103) ∧
    (∀ a b, s.modState ≠ .off → 20400 ≤ max a b → exec (.pfWarnCleared a b) s
      = .next { s with supply := { s.supply with mvA := a, mvB := b, pfWarn := false } }) ∧
    (∀ a b bank load us, s.alone 2 = true → holdupFrom s.modState = true → s.supply.resetHeld = none →
      max a b < 18000 → 20 ≤ us →
      Answers (.pfStop a b bank load us) s fun t => Transition s t .holdup 0x0604 ∧ t.dark = true ∧
        t.supply.inputsCut = true ∧ t.supply.holdupAt = s.tick ∧ t.nv.holdupCount = s.nv.holdupCount + 1 ∧
        (∀ i : Sess, t.sessions[i] = none) ∧ (∀ x : AxisId, t.axes[x].st = .disabled ∧ t.axes[x].brakeOn = true) ∧
        (s.inBuild = true → t.supply.copierPending.isSome = true)) ∧
    (∀ a b bank load us, s.alone 2 = true → s.modState = .reset → max a b < 18000 → 20 ≤ us →
      Answers (.pfStop a b bank load us) s fun t =>
      t.modState = .reset ∧ t.supply.inputsCut = true) ∧
    (∀ mv us, s.modState ≠ .off → mv < 20400 → 1000 ≤ us → s.supply.goodB = true →
      Answers (.inputLost true mv us) s fun t =>
      t.supply.goodB = false ∧ t.supply.goodA = s.supply.goodA ∧ t.supply.mvB = mv ∧ Recorded t 0x9101) ∧
    (∀ mv us, s.modState ≠ .off → 20400 < mv → 50000 ≤ us → s.supply.goodA = false →
      Answers (.inputRestored false mv us) s fun t =>
        t.supply.goodA = true ∧ t.supply.goodB = s.supply.goodB ∧ Recorded t 0x9102) ∧
    (∀ mv us, s.modState = .holdup → 20400 < mv → 50000 ≤ us → s.supply.copierPending = none →
      Answers (.holdupReturn mv us) s fun t => Transition s t .reset 0 ∧ t.supply.resetCause = 3 ∧
        t.nv.resume = s.nv.resume) ∧
    (∀ mv, s.modState = .holdup → mv < 20000 → Answers (.holdupRailLow mv) s fun t => t.modState = .off ∧
      t.nv.endCause = 2 ∧ (s.supply.copierPending.isSome = true → t.nv.resume = none) ∧
      (s.supply.copierPending = none → t.nv.resume = s.nv.resume)) ∧
    (∀ mv, s.modState = .holdup → mv < 18000 → Answers (.converterStop mv) s fun t =>
      t.modState = .off ∧ t.supply.railsOff = true) ∧
    (∀ v : Byte, v.toNat ≤ 1 → s.admits q 0x2004 1 v.toNat = true → Answers (.resumeArm q v) s fun t =>
      t.answer = 0 ∧ t.resumeArm = (v == 1) ∧ t.nv = s.nv) ∧
    (s.admits q 0x2004 5 1 = true → Answers (.resumeDiscard q 1) s fun t => t.answer = 0 ∧ t.nv.resume = none ∧
      (s.nv.resume.isSome = true → t.resumeAvailable = false ∧ Recorded t 0x2104))

/-- Temperatures (R350 to R353, R355). -/
def Obligations.ThermalRows : Prop :=
  ∀ (s : State),
    (∀ l, s.modState ≠ .off → Answers (.housekeepingRound l) s fun t =>
      t.supply.temps = (List.range 19).map (fun i => s.sensorValue i (l.getD i 0)) ∧
      (10500 ≤ (s.hottest 16 t.supply.temps).1 → s.supply.level ≤ 2 → t.supply.level = 2) ∧
      ((s.hottest 16 t.supply.temps).1 < 9000 → s.supply.level ≤ 3 → t.supply.level = 0) ∧ t.modState = s.modState) ∧
    (∀ n : SensorId, s.excludedSensor n.val = false → 3 ≤ s.supply.badRun.getD n.val 0 → s.supply.excluded = 0 →
      s.alone 3 = true → s.supply.firstFault = none ∨ s.supply.firstFault = some 6 →
        Answers (.sensorExcluded n) s fun t => t.excludedSensor n.val = true ∧ t.modState = s.modState ∧
        Recorded t 0x9106) ∧
    (∀ n : SensorId, s.excludedSensor n.val = false → 3 ≤ s.supply.badRun.getD n.val 0 → s.supply.excluded ≠ 0 →
      s.alone 3 = true → s.supply.resetHeld = none → s.modState = .building → Answers (.sensorExcluded n) s fun t =>
        t.excludedSensor n.val = true ∧ Transition s t .safe 0x0603 ∧ t.dark = true) ∧
    (∀ (n : SensorId) v, s.modState ≠ .off → s.modState ≠ .thermalOff → n.val < 16 → s.excludedSensor n.val = false →
      12000 ≤ v → Answers (.thermalShutdown n v) s fun t => Transition s t .thermalOff 0x0603 ∧ t.dark = true ∧
        t.mem = [] ∧ t.nv.thermalOffCount = s.nv.thermalOffCount + 1 ∧ (∀ i : Sess, t.sessions[i] = none) ∧
        ∀ x : AxisId, t.axes[x].st = .disabled) ∧
    (∀ d, s.supply.stage1At = some d → s.supply.level = 2 → d + 80000000 * s.nat 0x9012 1 ≤ s.tick →
      Answers .throttleStage2 s fun t => t.supply.level = 3 ∧ Recorded t 0x9105) ∧
    (s.modState = .thermalOff → (s.hottest 19 s.supply.temps).1 < 9500 → s.supply.copierPending = none →
      s.supply.temps ≠ [] → Answers .thermalRestart s fun t => Transition s t .reset 0 ∧ t.supply.resetCause = 6)

/-- Bytes of working memory and values of entries: what is written is read back, nothing else changes, and the canonical
forms are kept (R277, R304, R306). -/
def Obligations.StoreLaws : Prop :=
  (∀ (m : List Host.Cell) a (b : Bytes), Memory.wf m = true →
    Memory.wf (memWriteN m a b) = true ∧ memReadN (memWriteN m a b) a b.length = b ∧
    ∀ x, (x < a ∨ a + b.length ≤ x) → memRead (memWriteN m a b) x = memRead m x) ∧
  (∀ (s : State) i j v, dictWf s.dict = true →
    dictWf (s.put i j v).dict = true ∧ (s.put i j v).val i j = v ∧
    ∀ k, k ≠ entryKey i j → assocGet k (s.put i j v).dict = assocGet k s.dict)

/-- The stored form of a block of up to 65,536 octets has the size of R323 and passes the check inflater (R326), so that
a block always has a form to be written in. -/
def Obligations.StoredFormInflates : Prop :=
  ∀ b : Bytes, 0 < b.length → b.length ≤ 65536 →
    (storedForm b).length = storedSize b.length ∧ inflate (storedForm b) b.length = some b ∧
    (chunkBytes (chunkFlags false true 0) b (storedForm b)).length = chunkBound b.length

/-- What the words and the waits of an engine leave as it was (R34 to R45, R94 to R113, R157 to R162): memory, the lasers,
the axes, the build state, the calibration, and every entry that a host writes; the parameter words also leave tokens,
remainders and the spare channel. -/
def Obligations.FrameEngines : Prop :=
  ∀ (s : State) (e : EngineId),
    (∀ i t, i ∈ [
        .setMarkSpeed e, .setJumpLimits e, .setPower e, .setFocus e, .setLaserDelays e, .setCorner e, .setpoint e,
        .seam e, .label e] →
      exec i s = .next t → t =
        { s with engines := t.engines, contexts := t.contexts, claims := t.claims, dict := t.dict,
                 evtQ := t.evtQ, evtWait := t.evtWait, evtLost := t.evtLost, free := t.free } ∧
        SettingsKept s t) ∧
    (∀ i t, i ∈ [
        .jump e, .mark e, .dwell e, .tokenSignal e, .tokenWait e, .groupBegin e, .groupEnd e, .preempt e,
        .layerEnd e, .endWord e, .tokenWaitSatisfied e, .seamWaitEnd e, .tokenTimeout e, .claimDecision e,
        .waitBound e, .preemption e, .bufferEmptyStall e, .stallResume e, .stealAttempt e, .readyTimeout e] →
      exec i s = .next t → t =
        { s with engines := t.engines, contexts := t.contexts, claims := t.claims, claimSerial := t.claimSerial,
                 remainders := t.remainders, tokens := t.tokens, spare := t.spare, dict := t.dict,
                 evtQ := t.evtQ, evtWait := t.evtWait, evtLost := t.evtLost, free := t.free } ∧
        SettingsKept s t)

/-- What links, axis inputs, imaging, time, working memory, the recorder and the supply leave as it was when something happens
to them (R68 to R79, R211 to R232, R236 to R258, R287 to R300, R308 to R315, R330 to R338, R341 to R353,
  R384): no engine, no
byte of memory, not the module state, and no entry that a host writes. -/
def Obligations.FrameEvents : Prop :=
  ∀ (s : State),
    (∀ (p : LaserId) n ph ns d f i t, i ∈ [
        .linkStartup p, .linkAlign p n ph ns, .linkIdentify p, .linkUp p, .startupTimeout p, .linkRetry p,
        .upstreamFrame p f, .auxResponse p d, .auxTimeout p, .headTemperatureStale p, .anomalyStart p] →
      exec i s = .next t → t =
        { s with lasers := t.lasers, dict := t.dict, evtQ := t.evtQ, evtWait := t.evtWait, evtLost := t.evtLost,
                 free := t.free } ∧
        SettingsKept s t ∧
        ∀ o, o ≠ p → t.lasers[o] = s.lasers[o]) ∧
    (∀ (a : AxisId) w x y u v i t, i ∈ [
        .enableDone a, .enaOff a, .chatterCleared a w, .standstillTimeout a, .inPosition a, .stopComplete a,
        .encoderEdge a x y, .sincosSample a u v] →
      exec i s = .next t → t =
        { s with axes := t.axes, dict := t.dict, evtQ := t.evtQ, evtWait := t.evtWait, evtLost := t.evtLost,
                 free := t.free } ∧
        SettingsKept s t ∧
        ∀ b, b ≠ a → t.axes[b] = s.axes[b]) ∧
    (∀ (p : CamId) vc dt h c px (k : PlaneId) l i t, i ∈ [
        .camFrameStart p vc, .camLongPacket p vc dt h c px, .camFrameEnd p vc, .frameTimeout p, .exposureEnd p,
        .trigPeriod p, .scaleDone k l, .planeTransparent k] →
      exec i s = .next t → t =
        { s with cams := t.cams, planes := t.planes, tlb := t.tlb, sharedTlb := t.sharedTlb, faults := t.faults,
                 faultWait := t.faultWait, lastFault := t.lastFault, dict := t.dict, evtQ := t.evtQ,
                 evtWait := t.evtWait, evtLost := t.evtLost, free := t.free } ∧
        SettingsKept s t ∧
        ∀ o, o ≠ p → t.cams[o] = s.cams[o]) ∧
    (∀ hp tr ed w (k : PetalId) r i t, i ∈ [
        .outputFrameBoundary, .flattenDone, .dpHpd hp tr ed, .dpRetrain tr, .writebackFault w, .ntcReading k r] →
      exec i s = .next t → t =
        { s with comp := t.comp, planes := t.planes, petals := t.petals, blobs := t.blobs, tlb := t.tlb,
                 sharedTlb := t.sharedTlb, faults := t.faults, faultWait := t.faultWait, lastFault := t.lastFault,
                 dict := t.dict, evtQ := t.evtQ, evtWait := t.evtWait, evtLost := t.evtLost, free := t.free } ∧
        SettingsKept s t) ∧
    (∀ p o d m b g n u c l (r : Fin 2) x y z k v i t, i ∈ [
        .secondBoundary, .tickAnchor, .ppsEnd, .syncLoss, .latchEdge r b, .ptpSync p o d b c,
        .ptpDelayMessage p m v c, .ptpAnnounce p g n u b l c, .ptpForward r x y z k v, .announceReceiptTimeout p l] →
      exec i s = .next t → t =
        { s with time := t.time, sent := t.sent, dict := t.dict, evtQ := t.evtQ, evtWait := t.evtWait,
                 evtLost := t.evtLost,
                 free := t.free } ∧
        SettingsKept s t) ∧
    (∀ (c : ChanId) b r i t, i ∈ [
        .refresh c, .zqShort c, .neighbourRefresh c b r, .refreshWindowEnd c, .ageRaise c] →
      exec i s = .next t → t =
        { s with dram := t.dram, dict := t.dict, free := t.free } ∧
        SettingsKept s t ∧
        ∀ o, o ≠ c → t.dram[o] = s.dram[o]) ∧
    (∀ ok i t, i ∈ [
        .eventRecordTaken, .pageProgram ok, .flushInterval ok, .ringBlockErase ok, .mirrorWrite] →
      exec i s = .next t → t =
        { s with nv := t.nv, mirror := t.mirror, mirrorNext := t.mirrorNext, sessions := t.sessions,
                 freed := t.freed, dict := t.dict, evtQ := t.evtQ, evtWait := t.evtWait, evtLost := t.evtLost,
                 free := t.free } ∧
        SettingsKept s t ∧
        t.nv.accounts = s.nv.accounts ∧ t.nv.copyA = s.nv.copyA ∧ t.nv.profileA = s.nv.profileA ∧
          t.nv.resume = s.nv.resume) ∧
    (∀ a b us side mv l i t, i ∈ [
        .pfWarn a b us, .pfWarnCleared a b, .inputRestored side mv us, .vioLow mv, .vioRestored mv, .throttleStage2,
        .oscTrim, .housekeepingRound l] →
      exec i s = .next t → t =
        { s with supply := t.supply, dram := t.dram, dict := t.dict, evtQ := t.evtQ, evtWait := t.evtWait,
                 evtLost := t.evtLost,
                 free := t.free } ∧
        SettingsKept s t) ∧
    (∀ side mv us i t, i ∈ [
        .inputLost side mv us, .firmwareFailover] →
      exec i s = .next t → s.supply.firstFault = none → t =
        { s with supply := t.supply, dict := t.dict, evtQ := t.evtQ, evtWait := t.evtWait, evtLost := t.evtLost,
                 free := t.free } ∧
        SettingsKept s t)

/-- What a host's row leaves as it was, whether it is carried out or refused (R194, R213 to R226, R239, R142 to R151, R167, R284, R322,
R368 to R375): all but its own unit, the answer, the event queue, and counters; and
nothing at all changes where Choyr is not served (R24, R390). -/
def Obligations.FrameHost : Prop :=
  ∀ (s : State),
    (∀ q (a : AxisId) m i t, i ∈ [
        .enable q a, .disable q a, .moveAbs q a, .moveRel q a, .jog q a, .stop q a, .home q a, .coord q a m,
        .clear q a, .follow q a, .setPosition q a] →
      exec i s = .next t → t =
        { s with answer := t.answer, sessions := t.sessions, dict := t.dict, evtQ := t.evtQ, evtWait := t.evtWait,
                 evtLost := t.evtLost, free := t.free, axes := t.axes, overload := t.overload, lanes := t.lanes } ∧
        (s.served q = false → t = s)) ∧
    (∀ q p i t, i ∈ [
        .headMap q p, .focusMap q p, .gateAlign q p, .driftPoint q p, .crossCheck q p, .powerLin q p, .pdGain q p,
        .oscModel q p] →
      exec i s = .next t → t =
        { s with answer := t.answer, sessions := t.sessions, dict := t.dict, evtQ := t.evtQ, evtWait := t.evtWait,
                 evtLost := t.evtLost, free := t.free, cal := t.cal, lasers := t.lasers, overload := t.overload,
                 engines := t.engines, lanes := t.lanes } ∧
        (s.served q = false → t = s)) ∧
    (∀ q (p : CamId) (k : PlaneId) v i t, i ∈ [
        .portCommit q p v, .trigNow q p v, .planeFlip q k v, .planeCommit q k v, .outCommit q v, .reflatten q v] →
      exec i s = .next t → t =
        { s with answer := t.answer, sessions := t.sessions, dict := t.dict, evtQ := t.evtQ, evtWait := t.evtWait,
                 evtLost := t.evtLost, free := t.free, cams := t.cams, planes := t.planes, comp := t.comp,
                 tlb := t.tlb, sharedTlb := t.sharedTlb, faults := t.faults, faultWait := t.faultWait,
                 lastFault := t.lastFault } ∧
        (s.served q = false → t = s)) ∧
    (∀ q (n : LaneId) v i t, i ∈ [
        .chainCommit q n v, .injStart q n v, .capStart q v, .profStart q n v] →
      exec i s = .next t → t =
        { s with answer := t.answer, sessions := t.sessions, dict := t.dict, evtQ := t.evtQ, evtWait := t.evtWait,
                 evtLost := t.evtLost, free := t.free, lanes := t.lanes, capture := t.capture } ∧
        (s.served q = false → t = s)) ∧
    (∀ q d tag v i t, i ∈ [
        .dmaSubmit q d, .compressSubmit q d, .compressCancel q tag, .trimRequest q v, .trimWithdraw q v,
        .storeProfile q v] →
      exec i s = .next t → t =
        { s with answer := t.answer, sessions := t.sessions, dict := t.dict, evtQ := t.evtQ, evtWait := t.evtWait,
                 evtLost := t.evtLost, free := t.free, dma := t.dma, jobs := t.jobs, spare := t.spare,
                 profileBusy := t.profileBusy, profileTarget := t.profileTarget,
                 profileFailed := t.profileFailed } ∧
        (s.served q = false → t = s)) ∧
    (∀ q o f d im v w i t, i ∈ [
        .packageData q o f d, .firmwareImage q im, .firmwareActivate q v, .certifiedModeWrite q v, .tamperAck q v w] →
      exec i s = .next t → t =
        { s with answer := t.answer, sessions := t.sessions, dict := t.dict, evtQ := t.evtQ, evtWait := t.evtWait,
                 evtLost := t.evtLost, free := t.free, pkg := t.pkg, nv := t.nv, sec := t.sec } ∧
        t.nv.resume = s.nv.resume ∧ t.nv.copyA = s.nv.copyA ∧ t.nv.accounts = s.nv.accounts ∧
        (s.served q = false → t = s))

/-- R354: "A write of ThrottleDwellMax below ThrottleDwell is refused with 0x0203." -/
def Obligations.DwellMaxBelowDwellRefused : Prop :=
  ∀ (s : State) (q : Sess) (v : BitVec 32), s.admits q 0x9012 3 v.toNat = true → s.nat 0x9012 2 ≤ 60000 →
    v.toNat < s.nat 0x9012 2 → Answers (.entryWrite q 0x9012 3 (leBytes 4 v.toNat)) s fun t => t.answer = 0x0203 ∧
      t.val 0x9012 3 = s.val 0x9012 3

/-- R218: a write of 1 to PlaneCommit with SrcWidth above 8,192, a horizontal ratio above 16:1 or a vertical ratio above
4:1 is refused with 0x0701, the plane keeps its configuration and what was committed before, the composition goes on, and
event 0x7203 is recorded. -/
def Obligations.PlaneCommitRefused : Prop :=
  ∀ (s : State) (q : Sess) (k : PlaneId), s.admits q (0x7100 + k.val) 0x12 1 = true →
    (8192 < (s.stagedPlane k).srcW ∨ 16 * (s.stagedPlane k).dstW < (s.stagedPlane k).srcW ∨
      4 * (s.stagedPlane k).dstH < (s.stagedPlane k).srcH) →
    Answers (.planeCommit q k 1) s fun t => t.answer = 0x0701 ∧ t.planes = s.planes ∧ t.comp = s.comp ∧
      (s.evtCredit 7 = true → s.evtWaits 7 = false → Recorded t 0x7203)

/-- R292: a write of 12 bytes to SetTime sets device time, Fraction 0, with status SET; it is refused with 0x0203 while the
status is LOCKING, LOCKED or GRANDMASTER with a PTP port enabled, with 0x0201 when Nanoseconds is above 999,999,999,
  and with
0x0105 in the states in which no step is permitted. -/
def Obligations.SetTimeRule : Prop :=
  ∀ (s : State) (q : Sess) (d : Bytes), s.admits q 0x8000 3 d.length = true → d.length = 12 →
    (s.noStep = false → leAt d 8 4 ≤ 999999999 →
      ¬ ((s.time.status = 2 ∨ s.time.status = 3 ∨ s.time.status = 5) ∧ s.anyPtp = true) →
      Answers (.setTime q d) s fun t => t.answer = 0 ∧ t.time.status = 1 ∧
        timeBytes t.time.now = d ++ [0, 0]) ∧
    (s.noStep = false → leAt d 8 4 ≤ 999999999 → (s.time.status = 2 ∨ s.time.status = 3 ∨ s.time.status = 5) →
      s.anyPtp = true → Answers (.setTime q d) s fun t => t.answer = 0x0203 ∧ t.time = s.time) ∧
    (s.noStep = false → 999999999 < leAt d 8 4 → Answers (.setTime q d) s fun t =>
      t.answer = 0x0201 ∧ t.time = s.time) ∧
    ((s.modState = .building ∨ s.modState = .paused ∨ s.modState = .service ∨
        (s.modState = .armed ∧ s.time.scheduled.isSome = true)) → Answers (.setTime q d) s fun t =>
      t.answer = 0x0105 ∧ t.time = s.time)

/-- What events of lasers, the spare channel, the Heat Ledger, lanes, axes, contexts, jobs, translation, memory scrub,
calibration and petals leave as it was (R83 to R86, R117 to R156, R163 to R168, R174 to R187, R192 to R210, R229, R236 to
R258, R312 to R315, R328): everything outside their own units, counters and the event queue, and every entry that a host
writes but the one named. -/
def Obligations.FrameUnits : Prop :=
  ∀ (s : State),
    (∀ (p : LaserId) r a n b i t, i ∈ [
        .laserUnavailable p r a, .laserAvailable p n, .emitReadback p b, .hfaultUnavailable p, .linkLost p,
        .powerSlot p, .samplePair p] →
      exec i s = .next t → t =
        { s with lasers := t.lasers, engines := t.engines, contexts := t.contexts, claims := t.claims,
                 spare := t.spare, cal := t.cal, lanes := t.lanes, freed := t.freed, dict := t.dict, evtQ := t.evtQ,
                 evtWait := t.evtWait,
                 evtLost := t.evtLost, free := t.free } ∧
        SettingsKept s t) ∧
    (∀ (e : EngineId) i t, i ∈ [
        .update, .standinRoute, .handBack, .heldRemaindersLost, .layerEndForced e,
        .keepoutRelease e] →
      exec i s = .next t → t =
        { s with lasers := t.lasers, engines := t.engines, contexts := t.contexts, claims := t.claims,
                 claimSerial := t.claimSerial, remainders := t.remainders, tokens := t.tokens,
                 fetched := t.fetched, layer := t.layer, spare := t.spare, cal := t.cal, lanes := t.lanes,
                 freed := t.freed, faults := t.faults, faultWait := t.faultWait, dict := t.dict, evtQ := t.evtQ,
                 evtWait := t.evtWait, evtLost := t.evtLost, free := t.free } ∧
        SettingsKept s t) ∧
    (∀ f (c : SelfChecks) l i t, i ∈ [
        .takeover f c l] →
      exec i s = .next t → c.control = false → s.supply.firstFault = none ∨ s.supply.firstFault = some 1 → t =
        { s with supply := t.supply, lasers := t.lasers, engines := t.engines, contexts := t.contexts, claims := t.claims,
                 claimSerial := t.claimSerial, remainders := t.remainders, tokens := t.tokens,
                 fetched := t.fetched, layer := t.layer, spare := t.spare, cal := t.cal, lanes := t.lanes,
                 freed := t.freed, faults := t.faults, faultWait := t.faultWait, dict := t.dict, evtQ := t.evtQ,
                 evtWait := t.evtWait, evtLost := t.evtLost, free := t.free } ∧
        SettingsKept s t) ∧
    (∀ b l i t, i ∈ [
        .trimStart, .trimEnd b l] →
      exec i s = .next t → t =
        { s with records := t.records, cal := t.cal, lasers := t.lasers, engines := t.engines, contexts := t.contexts,
                 claims := t.claims, remainders := t.remainders, fetched := t.fetched, spare := t.spare,
                 lanes := t.lanes, freed := t.freed, faults := t.faults, faultWait := t.faultWait, dict := t.dict,
                 evtQ := t.evtQ, evtWait := t.evtWait, evtLost := t.evtLost, free := t.free } ∧
        ∀ k, k ≠ entryKey 0x3C10 5 → hostKey k = true → assocGet k t.dict = assocGet k s.dict) ∧
    (∀ (e : EngineId) x y u i t, i ∈ [
        .deposit e, .ledgerTileFill x y u, .ledgerSweep x y, .lookaheadResult e] →
      exec i s = .next t → t =
        { s with ledger := t.ledger, engines := t.engines, lanes := t.lanes, freed := t.freed, dict := t.dict,
                 evtQ := t.evtQ, evtWait := t.evtWait,
                 evtLost := t.evtLost, free := t.free } ∧
        SettingsKept s t) ∧
    (∀ (e : EngineId) (n : LaneId) v i t, i ∈ [
        .laneRun e, .feedbackReturned n, .axisLaneRun n v, .injectionEnd n, .captureDone] →
      exec i s = .next t → t =
        { s with lanes := t.lanes, lasers := t.lasers, engines := t.engines, axes := t.axes,
                 capture := t.capture, freed := t.freed, aout := t.aout, dict := t.dict, evtQ := t.evtQ,
                 evtWait := t.evtWait, evtLost := t.evtLost, free := t.free } ∧
        SettingsKept s t) ∧
    (∀ (a : AxisId) x y (o : Fin 20) i t, i ∈ [
        .indexPulse a x y, .axisFeedbackLost a, .layerStageStart, .brakeRelease a, .outputOverload o] →
      exec i s = .next t → t =
        { s with axes := t.axes, overload := t.overload, lasers := t.lasers, lanes := t.lanes, layer := t.layer,
                 dict := t.dict, evtQ := t.evtQ, evtWait := t.evtWait, evtLost := t.evtLost, free := t.free } ∧
        SettingsKept s t) ∧
    (∀ c i t, i ∈ [
        .contextSpill, .contextFill c, .compressChunk] →
      exec i s = .next t → t =
        { s with contexts := t.contexts, jobs := t.jobs, layer := t.layer, mem := t.mem, poisoned := t.poisoned,
                 tlb := t.tlb, sharedTlb := t.sharedTlb, faults := t.faults, lastFault := t.lastFault,
                 faultWait := t.faultWait, dict := t.dict, evtQ := t.evtQ, evtWait := t.evtWait,
                 evtLost := t.evtLost, free := t.free } ∧
        SettingsKept s t) ∧
    (∀ (p : SpaceId) g m n a w pr i t, i ∈ [
        .translationFault m n p a w pr, .faultTimeout, .tlbInvalidate p g] →
      exec i s = .next t → t =
        { s with ledger := t.ledger, comp := t.comp, jobs := t.jobs, dma := t.dma, contexts := t.contexts,
                 fetched := t.fetched, engines := t.engines, layer := t.layer, mirrorHeld := t.mirrorHeld,
                 mirrorNext := t.mirrorNext, tlb := t.tlb, sharedTlb := t.sharedTlb, faults := t.faults,
                 lastFault := t.lastFault, faultWait := t.faultWait, planes := t.planes, pkg := t.pkg,
                 dict := t.dict, evtQ := t.evtQ, evtWait := t.evtWait, evtLost := t.evtLost, free := t.free } ∧
        SettingsKept s t) ∧
    (∀ (p : SpaceId) i t, i ∈ [
        .dmaChunk p] →
      exec i s = .next t → t =
        { s with dma := t.dma, mem := t.mem, poisoned := t.poisoned, tlb := t.tlb, sharedTlb := t.sharedTlb,
                 faults := t.faults, lastFault := t.lastFault, faultWait := t.faultWait, dict := t.dict,
                 evtQ := t.evtQ, evtWait := t.evtWait,
                 evtLost := t.evtLost, free := t.free } ∧
        SettingsKept s t) ∧
    (∀ (c : ChanId) l d i t, i ∈ [
        .patrolScrub c l, .deviceMarked c d] →
      exec i s = .next t → s.supply.firstFault = none ∨ s.supply.firstFault = some 3 → t =
        { s with supply := t.supply, dram := t.dram, mem := t.mem, poisoned := t.poisoned, nv := t.nv, dict := t.dict,
                 evtQ := t.evtQ, evtWait := t.evtWait, evtLost := t.evtLost, free := t.free } ∧
        ∀ k, k ≠ entryKey (0xC010 + c.val) 8 → hostKey k = true → assocGet k t.dict = assocGet k s.dict) ∧
    (∀ o l i t, i ∈ [
        .readingTimeout, .calAborted, .calDone o, .recordCommitDone l] →
      exec i s = .next t → t =
        { s with cal := t.cal, records := t.records, nv := t.nv, lasers := t.lasers, engines := t.engines,
                 lanes := t.lanes, overload := t.overload, supply := t.supply, dict := t.dict, evtQ := t.evtQ,
                 evtWait := t.evtWait,
                 evtLost := t.evtLost, free := t.free } ∧
        t.nv.resume = s.nv.resume ∧ t.nv.accounts = s.nv.accounts ∧ t.nv.profileA = s.nv.profileA) ∧
    (∀ (a : AxisId) v d w l uA uB iA iB dA dB (n : SensorId) i t, i ∈ [
        .profilePeriod a v, .stepInEdge a d, .switchChange a w l, .stall a uA uB iA iB dA dB, .homingTimeout a,
        .sensorExcluded n] →
      exec i s = .next t → s.alone 3 = true → t =
        { s with axes := t.axes, modState := t.modState, prevState := t.prevState, cause := t.cause,
                 entryTick := t.entryTick, safeCauses := t.safeCauses, records := t.records,
                 contexts := t.contexts, remainders := t.remainders, claims := t.claims, time := t.time,
                 spare := t.spare, cal := t.cal, lasers := t.lasers, engines := t.engines, nv := t.nv,
                 layer := t.layer, supply := t.supply, dict := t.dict, evtQ := t.evtQ, evtWait := t.evtWait,
                 evtLost := t.evtLost,
                 free := t.free } ∧
        SettingsKept s t) ∧
    (∀ l i t, i ∈ [
        .scanBoundary l] →
      exec i s = .next t → t =
        { s with cams := t.cams, petals := t.petals, scanNumber := t.scanNumber, dict := t.dict, evtQ := t.evtQ,
                 evtWait := t.evtWait,
                 evtLost := t.evtLost, free := t.free } ∧
        SettingsKept s t)

/-- What requests, sessions, nodes, and the commands of hosts to links, calibration, petals, axes, time, resume, snapshots,
accounts and the build leave as it was (R25, R261 to R278, R334, R347, R362 to R364): working memory,
  the axes or what else
stands outside their own units. -/
def Obligations.FrameSessions : Prop :=
  ∀ (s : State),
    (∀ q m x i t, i ∈ [
        .readReq q m, .subscribeReq q m, .echoReq q m, .cyclic q x] →
      exec i s = .next t → t =
        { s with answer := t.answer, answerData := t.answerData, sessions := t.sessions, sent := t.sent,
                 time := t.time, discardSince := t.discardSince, discardAt := t.discardAt, dict := t.dict,
                 evtQ := t.evtQ, evtWait := t.evtWait, evtLost := t.evtLost, free := t.free } ∧
        SettingsKept s t ∧
        (s.served q = false → t = s)) ∧
    (∀ m (n : BitVec 14) b u v w f i t, i ∈ [
        .announceReceived m, .nodeUnheard n, .announceSend, .ringFrameForward b u v w f, .ringPort b u] →
      exec i s = .next t → t =
        { s with nodes := t.nodes, duplicateAt := t.duplicateAt, runningMinor := t.runningMinor,
                 minorSetBy := t.minorSetBy, announceAt := t.announceAt, ringUp := t.ringUp, sent := t.sent,
                 discardSince := t.discardSince, discardAt := t.discardAt, dict := t.dict, evtQ := t.evtQ,
                 evtWait := t.evtWait,
                 evtLost := t.evtLost, free := t.free } ∧
        SettingsKept s t) ∧
    (∀ p n a au ip c x (q : Sess) d i t, i ∈ [
        .sessionOpened p n a au, .sessionTimeout q, .handshakeFailed ip c x, .lockoutExpiry ip, .keyUpdate q d,
        .snapHoldExpiry q] →
      exec i s = .next t → t =
        { s with sessions := t.sessions, sent := t.sent, sec := t.sec, layer := t.layer, dict := t.dict,
                 evtQ := t.evtQ, evtWait := t.evtWait, evtLost := t.evtLost, free := t.free } ∧
        SettingsKept s t) ∧
    (∀ q (p : LaserId) a d i t, i ∈ [
        .auxRead q p a, .auxWrite q p a d] →
      exec i s = .next t → t =
        { s with answer := t.answer, sessions := t.sessions, dict := t.dict, evtQ := t.evtQ, evtWait := t.evtWait,
                 evtLost := t.evtLost, free := t.free, lasers := t.lasers } ∧
        (∀ k, k ≠ entryKey (0x400A + 0x100 * p.val) 1 → hostKey k = true → assocGet k t.dict = assocGet k s.dict) ∧
        (s.served q = false → t = s)) ∧
    (∀ q w r d i t, i ∈ [
        .powerReading q w, .calStop q, .calAcceptCommit q, .calAcceptDiscard q, .recordImport q r d] →
      exec i s = .next t → t =
        { s with answer := t.answer, sessions := t.sessions, dict := t.dict, evtQ := t.evtQ, evtWait := t.evtWait,
                 evtLost := t.evtLost, free := t.free, cal := t.cal, lasers := t.lasers, engines := t.engines,
                 lanes := t.lanes, overload := t.overload, supply := t.supply } ∧
        (s.served q = false → t = s)) ∧
    (∀ q (k : PetalId) c v (a : AxisId) w i t, i ∈ [
        .dutyWrite q k c v, .velLimitWrite q a w, .accelLimitWrite q a w] →
      exec i s = .next t → t =
        { s with answer := t.answer, sessions := t.sessions, dict := t.dict, evtQ := t.evtQ, evtWait := t.evtWait,
                 evtLost := t.evtLost, free := t.free, petals := t.petals, axes := t.axes } ∧
        (s.served q = false → t = s)) ∧
    (∀ q d v i t, i ∈ [
        .scheduledStartWrite q d, .layerStartAtWrite q d, .resumeArm q v, .resumeDiscard q v, .snapOpen q v,
        .snapClose q v] →
      exec i s = .next t → t =
        { s with answer := t.answer, sessions := t.sessions, dict := t.dict, evtQ := t.evtQ, evtWait := t.evtWait,
                 evtLost := t.evtLost, free := t.free, time := t.time, blobs := t.blobs, nv := t.nv,
                 resumeArm := t.resumeArm, resumeAvailable := t.resumeAvailable } ∧
        SettingsKept s t ∧
        (s.served q = false → t = s) ∧
        t.nv.accounts = s.nv.accounts ∧ t.nv.copyA = s.nv.copyA ∧ t.nv.profileA = s.nv.profileA) ∧
    (∀ q (c : ChanId) v (n : Fin 32) x d i t, i ∈ [
        .markedDeviceClear q c v, .accountWrite q n x d] →
      exec i s = .next t → t =
        { s with answer := t.answer, sessions := t.sessions, dict := t.dict, evtQ := t.evtQ, evtWait := t.evtWait,
                 evtLost := t.evtLost, free := t.free, dram := t.dram, nv := t.nv, sec := t.sec,
                 layer := t.layer } ∧
        t.nv.resume = s.nv.resume ∧ t.nv.copyA = s.nv.copyA ∧ t.nv.profileA = s.nv.profileA ∧
        (s.served q = false → t = s)) ∧
    (∀ q (i : Fin 2) j t, j ∈ [
        .latchDataRead q i] →
      exec j s = .next t → t =
        { s with answer := t.answer, answerData := t.answerData, sessions := t.sessions, time := t.time } ∧
        (s.served q = false → t = s)) ∧
    (∀ q i t, i ∈ [
        .start q, .pause q, .abort q, .disarm q, .clearSafe q, .enterService q, .leaveService q] →
      exec i s = .next t → s.alone 4 = true → t =
        { s with commandStatus := t.commandStatus, modState := t.modState, prevState := t.prevState,
                 cause := t.cause, entryTick := t.entryTick, safeCauses := t.safeCauses, records := t.records,
                 contexts := t.contexts, fetched := t.fetched, remainders := t.remainders, claims := t.claims,
                 time := t.time, spare := t.spare, overload := t.overload, blobs := t.blobs, cal := t.cal,
                 lasers := t.lasers, engines := t.engines, nv := t.nv, layer := t.layer,
                 resumeAvailable := t.resumeAvailable, supply := t.supply, answer := t.answer,
                 sessions := t.sessions, dict := t.dict, evtQ := t.evtQ, evtWait := t.evtWait, evtLost := t.evtLost,
                 free := t.free } ∧
        (s.served q = false → t = s))
end

