-- ==== Sys2Proof/Laws/Assoc.lean ====
section
/-!
SUPPORT. Laws of the named operations: lists of key and value, elements of a vector, dictionary values, folds.
-/
namespace Sys2Proof.Machine

variable {α : Type}

/-- Reading the key just put. -/
@[simp] theorem assocGet_put_self (k : Nat) (v : α) (l : List (Nat × α)) : assocGet k (assocPut k v l) = some v := by
  induction l with
  | nil => simp [assocPut, assocGet]
  | cons x t ih =>
    obtain ⟨k', v'⟩ := x
    simp only [assocPut]
    split
    · simp [assocGet]
    · split
      · simp [assocGet]
      · rename_i h1 h2
        simp [assocGet, ih, Ne.symm h2]

/-- Reading another key than the one put. -/
theorem assocGet_put_ne {k j : Nat} (h : j ≠ k) (v : α) (l : List (Nat × α)) :
    assocGet j (assocPut k v l) = assocGet j l := by
  induction l with
  | nil => simp [assocPut, assocGet, Ne.symm h]
  | cons x t ih =>
    obtain ⟨k', v'⟩ := x
    simp only [assocPut]
    split
    · simp [assocGet, Ne.symm h]
    · split
      · rename_i h1 h2; subst h2; simp [assocGet, Ne.symm h]
      · simp [assocGet, ih]

/-- A deleted key is not listed. -/
@[simp] theorem assocGet_del_self (k : Nat) (l : List (Nat × α)) : assocGet k (assocDel k l) = none := by
  induction l with
  | nil => simp [assocDel, assocGet]
  | cons x t ih =>
    obtain ⟨k', v'⟩ := x
    simp only [assocDel]
    split
    · exact ih
    · rename_i h; simp [assocGet, ih, h]

/-- Another key than the one deleted. -/
theorem assocGet_del_ne {k j : Nat} (h : j ≠ k) (l : List (Nat × α)) : assocGet j (assocDel k l) = assocGet j l := by
  induction l with
  | nil => simp [assocDel, assocGet]
  | cons x t ih =>
    obtain ⟨k', v'⟩ := x
    simp only [assocDel]
    split
    · rename_i h2; subst h2; simp [assocGet, ih, Ne.symm h]
    · simp [assocGet, ih]

/-- The element changed, and the others. -/
@[simp] theorem vmod_get_self {n : Nat} (v : Vector α n) (i : Fin n) (f : α → α) : (vmod v i f)[i] = f v[i] := by
  simp [vmod]

theorem vmod_get_ne {n : Nat} (v : Vector α n) {i j : Fin n} (f : α → α) (h : j ≠ i) : (vmod v i f)[j] = v[j] := by
  have : (i : Nat) ≠ j := fun e => h (Fin.ext e.symm)
  simp [vmod, this]

/-- The value of an entry just put. -/
@[simp] theorem val_put_self (s : State) (i j : Nat) (v : Int) : (s.put i j v).val i j = v := by
  unfold State.put State.val
  by_cases h : v = defaultOf (entryKey i j)
  · simp only [if_pos h, assocGet_del_self]; exact h.symm
  · simp only [if_neg h, assocGet_put_self]

/-- An entry of another key keeps its value. -/
theorem val_put_ne (s : State) {i j i' j' : Nat} (h : entryKey i' j' ≠ entryKey i j) (v : Int) :
    (s.put i j v).val i' j' = s.val i' j' := by
  unfold State.put State.val
  by_cases hv : v = defaultOf (entryKey i j)
  · simp only [if_pos hv, assocGet_del_ne h]
  · simp only [if_neg hv, assocGet_put_ne h]

/-- What every element's operation keeps, the fold over a list keeps. -/
theorem foldl_keeps {σ β ι : Type} (π : σ → β) (f : σ → ι → σ) (h : ∀ s i, π (f s i) = π s) (l : List ι) (s : σ) :
    π (l.foldl f s) = π s := by
  induction l generalizing s with
  | nil => rfl
  | cons i t ih => simp only [List.foldl_cons]; rw [ih, h]

/-- The same for a fold over fixed numbers of things. -/
theorem foldFin_keeps {β : Type} {n : Nat} (π : State → β) (f : Fin n → State → State) (h : ∀ i s, π (f i s) = π s)
    (s : State) : π (State.foldFin n s f) = π s := by
  unfold State.foldFin
  exact foldl_keeps π (fun t i => f i t) (fun s i => h i s) _ s

/-- An entry of the module put to a new value leaves the host's settings alone. -/
theorem settings_put (s : State) (i j : Nat) (v : Int) (h : hostKey (entryKey i j) = false) : SettingsKept s (s.put i j v) := by
  intro k hk
  have hne : k ≠ entryKey i j := by intro e; rw [e, h] at hk; cases hk
  unfold State.put
  dsimp only
  split
  · rw [assocGet_del_ne hne]
  · rw [assocGet_put_ne hne]

theorem SettingsKept.refl (s : State) : SettingsKept s s := fun _ _ => rfl

theorem SettingsKept.trans {s t u : State} (h : SettingsKept s t) (h' : SettingsKept t u) : SettingsKept s u :=
  fun k hk => (h' k hk).trans (h k hk)

end Sys2Proof.Machine
end

