-- ==== Sys2Proof/Laws/State.lean ====
section
/-!
SUPPORT. What each update of the state leaves alone: one lemma per update, a conjunction over the fields it
does not change, each a simp rule, so that no later proof unfolds a record update.
-/
namespace Sys2Proof.Machine

/-- Changing an engine changes nothing else. -/
@[simp] theorem State.modEngine_frame (s : State) (e : EngineId) (f : Engine → Engine) :
    (s.modEngine e f).pending = s.pending ∧ (s.modEngine e f).free = s.free ∧ (s.modEngine e f).tick = s.tick ∧
    (s.modEngine e f).tickEnd = s.tickEnd ∧ (s.modEngine e f).modState = s.modState ∧
    (s.modEngine e f).prevState = s.prevState ∧ (s.modEngine e f).cause = s.cause ∧
    (s.modEngine e f).entryTick = s.entryTick ∧ (s.modEngine e f).commandStatus = s.commandStatus ∧
    (s.modEngine e f).safeCauses = s.safeCauses ∧ (s.modEngine e f).safetyOk = s.safetyOk ∧
    (s.modEngine e f).answer = s.answer ∧ (s.modEngine e f).answerData = s.answerData ∧
    (s.modEngine e f).sent = s.sent ∧ (s.modEngine e f).dict = s.dict ∧ (s.modEngine e f).blobs = s.blobs ∧
    (s.modEngine e f).armDict = s.armDict ∧ (s.modEngine e f).layer = s.layer ∧
    (s.modEngine e f).contexts = s.contexts ∧ (s.modEngine e f).lasers = s.lasers ∧
    (s.modEngine e f).claims = s.claims ∧ (s.modEngine e f).decidedAt = s.decidedAt ∧
    (s.modEngine e f).claimSerial = s.claimSerial ∧ (s.modEngine e f).remainders = s.remainders ∧
    (s.modEngine e f).tokens = s.tokens ∧ (s.modEngine e f).spare = s.spare ∧ (s.modEngine e f).ledger = s.ledger ∧
    (s.modEngine e f).lanes = s.lanes ∧ (s.modEngine e f).capture = s.capture ∧ (s.modEngine e f).aout = s.aout ∧
    (s.modEngine e f).axes = s.axes ∧ (s.modEngine e f).cams = s.cams ∧ (s.modEngine e f).planes = s.planes ∧
    (s.modEngine e f).comp = s.comp ∧ (s.modEngine e f).petals = s.petals ∧
    (s.modEngine e f).scanNumber = s.scanNumber ∧ (s.modEngine e f).sessions = s.sessions ∧
    (s.modEngine e f).nodes = s.nodes ∧ (s.modEngine e f).ringUp = s.ringUp ∧ (s.modEngine e f).ringV4 = s.ringV4 ∧
    (s.modEngine e f).uplinkV4 = s.uplinkV4 ∧ (s.modEngine e f).announceAt = s.announceAt ∧
    (s.modEngine e f).duplicateAt = s.duplicateAt ∧ (s.modEngine e f).discardAt = s.discardAt ∧
    (s.modEngine e f).discardSince = s.discardSince ∧ (s.modEngine e f).runningMinor = s.runningMinor ∧
    (s.modEngine e f).minorSetBy = s.minorSetBy ∧ (s.modEngine e f).profileBusy = s.profileBusy ∧
    (s.modEngine e f).profileTarget = s.profileTarget ∧ (s.modEngine e f).profileFailed = s.profileFailed ∧
    (s.modEngine e f).profileCause = s.profileCause ∧ (s.modEngine e f).activeProfile = s.activeProfile ∧
    (s.modEngine e f).pinSelection = s.pinSelection ∧ (s.modEngine e f).time = s.time ∧
    (s.modEngine e f).mem = s.mem ∧ (s.modEngine e f).poisoned = s.poisoned ∧
    (s.modEngine e f).tableBase = s.tableBase ∧ (s.modEngine e f).spillBase = s.spillBase ∧
    (s.modEngine e f).tlb = s.tlb ∧ (s.modEngine e f).sharedTlb = s.sharedTlb ∧
    (s.modEngine e f).faults = s.faults ∧ (s.modEngine e f).faultWait = s.faultWait ∧
    (s.modEngine e f).lastFault = s.lastFault ∧ (s.modEngine e f).dma = s.dma ∧ (s.modEngine e f).dram = s.dram ∧
    (s.modEngine e f).fetched = s.fetched ∧ (s.modEngine e f).inflaters = s.inflaters ∧
    (s.modEngine e f).jobs = s.jobs ∧ (s.modEngine e f).freed = s.freed ∧ (s.modEngine e f).evtQ = s.evtQ ∧
    (s.modEngine e f).evtWait = s.evtWait ∧ (s.modEngine e f).evtLost = s.evtLost ∧
    (s.modEngine e f).mirror = s.mirror ∧ (s.modEngine e f).mirrorNext = s.mirrorNext ∧
    (s.modEngine e f).mirrorHeld = s.mirrorHeld ∧ (s.modEngine e f).cal = s.cal ∧
    (s.modEngine e f).records = s.records ∧ (s.modEngine e f).pkg = s.pkg ∧ (s.modEngine e f).supply = s.supply ∧
    (s.modEngine e f).sec = s.sec ∧ (s.modEngine e f).recovery = s.recovery ∧
    (s.modEngine e f).resumeAvailable = s.resumeAvailable ∧ (s.modEngine e f).resumeArm = s.resumeArm ∧
    (s.modEngine e f).overload = s.overload ∧ (s.modEngine e f).nv = s.nv := by
  and_intros <;> rfl

/-- Changing a laser changes nothing else. -/
@[simp] theorem State.modLaser_frame (s : State) (p : LaserId) (f : Laser → Laser) :
    (s.modLaser p f).pending = s.pending ∧ (s.modLaser p f).free = s.free ∧ (s.modLaser p f).tick = s.tick ∧
    (s.modLaser p f).tickEnd = s.tickEnd ∧ (s.modLaser p f).modState = s.modState ∧
    (s.modLaser p f).prevState = s.prevState ∧ (s.modLaser p f).cause = s.cause ∧
    (s.modLaser p f).entryTick = s.entryTick ∧ (s.modLaser p f).commandStatus = s.commandStatus ∧
    (s.modLaser p f).safeCauses = s.safeCauses ∧ (s.modLaser p f).safetyOk = s.safetyOk ∧
    (s.modLaser p f).answer = s.answer ∧ (s.modLaser p f).answerData = s.answerData ∧
    (s.modLaser p f).sent = s.sent ∧ (s.modLaser p f).dict = s.dict ∧ (s.modLaser p f).blobs = s.blobs ∧
    (s.modLaser p f).armDict = s.armDict ∧ (s.modLaser p f).layer = s.layer ∧
    (s.modLaser p f).engines = s.engines ∧ (s.modLaser p f).contexts = s.contexts ∧
    (s.modLaser p f).claims = s.claims ∧ (s.modLaser p f).decidedAt = s.decidedAt ∧
    (s.modLaser p f).claimSerial = s.claimSerial ∧ (s.modLaser p f).remainders = s.remainders ∧
    (s.modLaser p f).tokens = s.tokens ∧ (s.modLaser p f).spare = s.spare ∧ (s.modLaser p f).ledger = s.ledger ∧
    (s.modLaser p f).lanes = s.lanes ∧ (s.modLaser p f).capture = s.capture ∧ (s.modLaser p f).aout = s.aout ∧
    (s.modLaser p f).axes = s.axes ∧ (s.modLaser p f).cams = s.cams ∧ (s.modLaser p f).planes = s.planes ∧
    (s.modLaser p f).comp = s.comp ∧ (s.modLaser p f).petals = s.petals ∧
    (s.modLaser p f).scanNumber = s.scanNumber ∧ (s.modLaser p f).sessions = s.sessions ∧
    (s.modLaser p f).nodes = s.nodes ∧ (s.modLaser p f).ringUp = s.ringUp ∧ (s.modLaser p f).ringV4 = s.ringV4 ∧
    (s.modLaser p f).uplinkV4 = s.uplinkV4 ∧ (s.modLaser p f).announceAt = s.announceAt ∧
    (s.modLaser p f).duplicateAt = s.duplicateAt ∧ (s.modLaser p f).discardAt = s.discardAt ∧
    (s.modLaser p f).discardSince = s.discardSince ∧ (s.modLaser p f).runningMinor = s.runningMinor ∧
    (s.modLaser p f).minorSetBy = s.minorSetBy ∧ (s.modLaser p f).profileBusy = s.profileBusy ∧
    (s.modLaser p f).profileTarget = s.profileTarget ∧ (s.modLaser p f).profileFailed = s.profileFailed ∧
    (s.modLaser p f).profileCause = s.profileCause ∧ (s.modLaser p f).activeProfile = s.activeProfile ∧
    (s.modLaser p f).pinSelection = s.pinSelection ∧ (s.modLaser p f).time = s.time ∧
    (s.modLaser p f).mem = s.mem ∧ (s.modLaser p f).poisoned = s.poisoned ∧
    (s.modLaser p f).tableBase = s.tableBase ∧ (s.modLaser p f).spillBase = s.spillBase ∧
    (s.modLaser p f).tlb = s.tlb ∧ (s.modLaser p f).sharedTlb = s.sharedTlb ∧ (s.modLaser p f).faults = s.faults ∧
    (s.modLaser p f).faultWait = s.faultWait ∧ (s.modLaser p f).lastFault = s.lastFault ∧
    (s.modLaser p f).dma = s.dma ∧ (s.modLaser p f).dram = s.dram ∧ (s.modLaser p f).fetched = s.fetched ∧
    (s.modLaser p f).inflaters = s.inflaters ∧ (s.modLaser p f).jobs = s.jobs ∧ (s.modLaser p f).freed = s.freed ∧
    (s.modLaser p f).evtQ = s.evtQ ∧ (s.modLaser p f).evtWait = s.evtWait ∧ (s.modLaser p f).evtLost = s.evtLost ∧
    (s.modLaser p f).mirror = s.mirror ∧ (s.modLaser p f).mirrorNext = s.mirrorNext ∧
    (s.modLaser p f).mirrorHeld = s.mirrorHeld ∧ (s.modLaser p f).cal = s.cal ∧
    (s.modLaser p f).records = s.records ∧ (s.modLaser p f).pkg = s.pkg ∧ (s.modLaser p f).supply = s.supply ∧
    (s.modLaser p f).sec = s.sec ∧ (s.modLaser p f).recovery = s.recovery ∧
    (s.modLaser p f).resumeAvailable = s.resumeAvailable ∧ (s.modLaser p f).resumeArm = s.resumeArm ∧
    (s.modLaser p f).overload = s.overload ∧ (s.modLaser p f).nv = s.nv := by
  and_intros <;> rfl

/-- Changing a lane changes nothing else. -/
@[simp] theorem State.modLane_frame (s : State) (n : LaneId) (f : Lane → Lane) :
    (s.modLane n f).pending = s.pending ∧ (s.modLane n f).free = s.free ∧ (s.modLane n f).tick = s.tick ∧
    (s.modLane n f).tickEnd = s.tickEnd ∧ (s.modLane n f).modState = s.modState ∧
    (s.modLane n f).prevState = s.prevState ∧ (s.modLane n f).cause = s.cause ∧
    (s.modLane n f).entryTick = s.entryTick ∧ (s.modLane n f).commandStatus = s.commandStatus ∧
    (s.modLane n f).safeCauses = s.safeCauses ∧ (s.modLane n f).safetyOk = s.safetyOk ∧
    (s.modLane n f).answer = s.answer ∧ (s.modLane n f).answerData = s.answerData ∧ (s.modLane n f).sent = s.sent ∧
    (s.modLane n f).dict = s.dict ∧ (s.modLane n f).blobs = s.blobs ∧ (s.modLane n f).armDict = s.armDict ∧
    (s.modLane n f).layer = s.layer ∧ (s.modLane n f).engines = s.engines ∧ (s.modLane n f).contexts = s.contexts ∧
    (s.modLane n f).lasers = s.lasers ∧ (s.modLane n f).claims = s.claims ∧
    (s.modLane n f).decidedAt = s.decidedAt ∧ (s.modLane n f).claimSerial = s.claimSerial ∧
    (s.modLane n f).remainders = s.remainders ∧ (s.modLane n f).tokens = s.tokens ∧
    (s.modLane n f).spare = s.spare ∧ (s.modLane n f).ledger = s.ledger ∧ (s.modLane n f).capture = s.capture ∧
    (s.modLane n f).aout = s.aout ∧ (s.modLane n f).axes = s.axes ∧ (s.modLane n f).cams = s.cams ∧
    (s.modLane n f).planes = s.planes ∧ (s.modLane n f).comp = s.comp ∧ (s.modLane n f).petals = s.petals ∧
    (s.modLane n f).scanNumber = s.scanNumber ∧ (s.modLane n f).sessions = s.sessions ∧
    (s.modLane n f).nodes = s.nodes ∧ (s.modLane n f).ringUp = s.ringUp ∧ (s.modLane n f).ringV4 = s.ringV4 ∧
    (s.modLane n f).uplinkV4 = s.uplinkV4 ∧ (s.modLane n f).announceAt = s.announceAt ∧
    (s.modLane n f).duplicateAt = s.duplicateAt ∧ (s.modLane n f).discardAt = s.discardAt ∧
    (s.modLane n f).discardSince = s.discardSince ∧ (s.modLane n f).runningMinor = s.runningMinor ∧
    (s.modLane n f).minorSetBy = s.minorSetBy ∧ (s.modLane n f).profileBusy = s.profileBusy ∧
    (s.modLane n f).profileTarget = s.profileTarget ∧ (s.modLane n f).profileFailed = s.profileFailed ∧
    (s.modLane n f).profileCause = s.profileCause ∧ (s.modLane n f).activeProfile = s.activeProfile ∧
    (s.modLane n f).pinSelection = s.pinSelection ∧ (s.modLane n f).time = s.time ∧ (s.modLane n f).mem = s.mem ∧
    (s.modLane n f).poisoned = s.poisoned ∧ (s.modLane n f).tableBase = s.tableBase ∧
    (s.modLane n f).spillBase = s.spillBase ∧ (s.modLane n f).tlb = s.tlb ∧
    (s.modLane n f).sharedTlb = s.sharedTlb ∧ (s.modLane n f).faults = s.faults ∧
    (s.modLane n f).faultWait = s.faultWait ∧ (s.modLane n f).lastFault = s.lastFault ∧
    (s.modLane n f).dma = s.dma ∧ (s.modLane n f).dram = s.dram ∧ (s.modLane n f).fetched = s.fetched ∧
    (s.modLane n f).inflaters = s.inflaters ∧ (s.modLane n f).jobs = s.jobs ∧ (s.modLane n f).freed = s.freed ∧
    (s.modLane n f).evtQ = s.evtQ ∧ (s.modLane n f).evtWait = s.evtWait ∧ (s.modLane n f).evtLost = s.evtLost ∧
    (s.modLane n f).mirror = s.mirror ∧ (s.modLane n f).mirrorNext = s.mirrorNext ∧
    (s.modLane n f).mirrorHeld = s.mirrorHeld ∧ (s.modLane n f).cal = s.cal ∧ (s.modLane n f).records = s.records ∧
    (s.modLane n f).pkg = s.pkg ∧ (s.modLane n f).supply = s.supply ∧ (s.modLane n f).sec = s.sec ∧
    (s.modLane n f).recovery = s.recovery ∧ (s.modLane n f).resumeAvailable = s.resumeAvailable ∧
    (s.modLane n f).resumeArm = s.resumeArm ∧ (s.modLane n f).overload = s.overload ∧
    (s.modLane n f).nv = s.nv := by
  and_intros <;> rfl

/-- Changing an axis changes nothing else. -/
@[simp] theorem State.modAxis_frame (s : State) (a : AxisId) (f : Axis → Axis) :
    (s.modAxis a f).pending = s.pending ∧ (s.modAxis a f).free = s.free ∧ (s.modAxis a f).tick = s.tick ∧
    (s.modAxis a f).tickEnd = s.tickEnd ∧ (s.modAxis a f).modState = s.modState ∧
    (s.modAxis a f).prevState = s.prevState ∧ (s.modAxis a f).cause = s.cause ∧
    (s.modAxis a f).entryTick = s.entryTick ∧ (s.modAxis a f).commandStatus = s.commandStatus ∧
    (s.modAxis a f).safeCauses = s.safeCauses ∧ (s.modAxis a f).safetyOk = s.safetyOk ∧
    (s.modAxis a f).answer = s.answer ∧ (s.modAxis a f).answerData = s.answerData ∧ (s.modAxis a f).sent = s.sent ∧
    (s.modAxis a f).dict = s.dict ∧ (s.modAxis a f).blobs = s.blobs ∧ (s.modAxis a f).armDict = s.armDict ∧
    (s.modAxis a f).layer = s.layer ∧ (s.modAxis a f).engines = s.engines ∧ (s.modAxis a f).contexts = s.contexts ∧
    (s.modAxis a f).lasers = s.lasers ∧ (s.modAxis a f).claims = s.claims ∧
    (s.modAxis a f).decidedAt = s.decidedAt ∧ (s.modAxis a f).claimSerial = s.claimSerial ∧
    (s.modAxis a f).remainders = s.remainders ∧ (s.modAxis a f).tokens = s.tokens ∧
    (s.modAxis a f).spare = s.spare ∧ (s.modAxis a f).ledger = s.ledger ∧ (s.modAxis a f).lanes = s.lanes ∧
    (s.modAxis a f).capture = s.capture ∧ (s.modAxis a f).aout = s.aout ∧ (s.modAxis a f).cams = s.cams ∧
    (s.modAxis a f).planes = s.planes ∧ (s.modAxis a f).comp = s.comp ∧ (s.modAxis a f).petals = s.petals ∧
    (s.modAxis a f).scanNumber = s.scanNumber ∧ (s.modAxis a f).sessions = s.sessions ∧
    (s.modAxis a f).nodes = s.nodes ∧ (s.modAxis a f).ringUp = s.ringUp ∧ (s.modAxis a f).ringV4 = s.ringV4 ∧
    (s.modAxis a f).uplinkV4 = s.uplinkV4 ∧ (s.modAxis a f).announceAt = s.announceAt ∧
    (s.modAxis a f).duplicateAt = s.duplicateAt ∧ (s.modAxis a f).discardAt = s.discardAt ∧
    (s.modAxis a f).discardSince = s.discardSince ∧ (s.modAxis a f).runningMinor = s.runningMinor ∧
    (s.modAxis a f).minorSetBy = s.minorSetBy ∧ (s.modAxis a f).profileBusy = s.profileBusy ∧
    (s.modAxis a f).profileTarget = s.profileTarget ∧ (s.modAxis a f).profileFailed = s.profileFailed ∧
    (s.modAxis a f).profileCause = s.profileCause ∧ (s.modAxis a f).activeProfile = s.activeProfile ∧
    (s.modAxis a f).pinSelection = s.pinSelection ∧ (s.modAxis a f).time = s.time ∧ (s.modAxis a f).mem = s.mem ∧
    (s.modAxis a f).poisoned = s.poisoned ∧ (s.modAxis a f).tableBase = s.tableBase ∧
    (s.modAxis a f).spillBase = s.spillBase ∧ (s.modAxis a f).tlb = s.tlb ∧
    (s.modAxis a f).sharedTlb = s.sharedTlb ∧ (s.modAxis a f).faults = s.faults ∧
    (s.modAxis a f).faultWait = s.faultWait ∧ (s.modAxis a f).lastFault = s.lastFault ∧
    (s.modAxis a f).dma = s.dma ∧ (s.modAxis a f).dram = s.dram ∧ (s.modAxis a f).fetched = s.fetched ∧
    (s.modAxis a f).inflaters = s.inflaters ∧ (s.modAxis a f).jobs = s.jobs ∧ (s.modAxis a f).freed = s.freed ∧
    (s.modAxis a f).evtQ = s.evtQ ∧ (s.modAxis a f).evtWait = s.evtWait ∧ (s.modAxis a f).evtLost = s.evtLost ∧
    (s.modAxis a f).mirror = s.mirror ∧ (s.modAxis a f).mirrorNext = s.mirrorNext ∧
    (s.modAxis a f).mirrorHeld = s.mirrorHeld ∧ (s.modAxis a f).cal = s.cal ∧ (s.modAxis a f).records = s.records ∧
    (s.modAxis a f).pkg = s.pkg ∧ (s.modAxis a f).supply = s.supply ∧ (s.modAxis a f).sec = s.sec ∧
    (s.modAxis a f).recovery = s.recovery ∧ (s.modAxis a f).resumeAvailable = s.resumeAvailable ∧
    (s.modAxis a f).resumeArm = s.resumeArm ∧ (s.modAxis a f).overload = s.overload ∧
    (s.modAxis a f).nv = s.nv := by
  and_intros <;> rfl

/-- Changing a camera port changes nothing else. -/
@[simp] theorem State.modCam_frame (s : State) (c : CamId) (f : Cam → Cam) :
    (s.modCam c f).pending = s.pending ∧ (s.modCam c f).free = s.free ∧ (s.modCam c f).tick = s.tick ∧
    (s.modCam c f).tickEnd = s.tickEnd ∧ (s.modCam c f).modState = s.modState ∧
    (s.modCam c f).prevState = s.prevState ∧ (s.modCam c f).cause = s.cause ∧
    (s.modCam c f).entryTick = s.entryTick ∧ (s.modCam c f).commandStatus = s.commandStatus ∧
    (s.modCam c f).safeCauses = s.safeCauses ∧ (s.modCam c f).safetyOk = s.safetyOk ∧
    (s.modCam c f).answer = s.answer ∧ (s.modCam c f).answerData = s.answerData ∧ (s.modCam c f).sent = s.sent ∧
    (s.modCam c f).dict = s.dict ∧ (s.modCam c f).blobs = s.blobs ∧ (s.modCam c f).armDict = s.armDict ∧
    (s.modCam c f).layer = s.layer ∧ (s.modCam c f).engines = s.engines ∧ (s.modCam c f).contexts = s.contexts ∧
    (s.modCam c f).lasers = s.lasers ∧ (s.modCam c f).claims = s.claims ∧ (s.modCam c f).decidedAt = s.decidedAt ∧
    (s.modCam c f).claimSerial = s.claimSerial ∧ (s.modCam c f).remainders = s.remainders ∧
    (s.modCam c f).tokens = s.tokens ∧ (s.modCam c f).spare = s.spare ∧ (s.modCam c f).ledger = s.ledger ∧
    (s.modCam c f).lanes = s.lanes ∧ (s.modCam c f).capture = s.capture ∧ (s.modCam c f).aout = s.aout ∧
    (s.modCam c f).axes = s.axes ∧ (s.modCam c f).planes = s.planes ∧ (s.modCam c f).comp = s.comp ∧
    (s.modCam c f).petals = s.petals ∧ (s.modCam c f).scanNumber = s.scanNumber ∧
    (s.modCam c f).sessions = s.sessions ∧ (s.modCam c f).nodes = s.nodes ∧ (s.modCam c f).ringUp = s.ringUp ∧
    (s.modCam c f).ringV4 = s.ringV4 ∧ (s.modCam c f).uplinkV4 = s.uplinkV4 ∧
    (s.modCam c f).announceAt = s.announceAt ∧ (s.modCam c f).duplicateAt = s.duplicateAt ∧
    (s.modCam c f).discardAt = s.discardAt ∧ (s.modCam c f).discardSince = s.discardSince ∧
    (s.modCam c f).runningMinor = s.runningMinor ∧ (s.modCam c f).minorSetBy = s.minorSetBy ∧
    (s.modCam c f).profileBusy = s.profileBusy ∧ (s.modCam c f).profileTarget = s.profileTarget ∧
    (s.modCam c f).profileFailed = s.profileFailed ∧ (s.modCam c f).profileCause = s.profileCause ∧
    (s.modCam c f).activeProfile = s.activeProfile ∧ (s.modCam c f).pinSelection = s.pinSelection ∧
    (s.modCam c f).time = s.time ∧ (s.modCam c f).mem = s.mem ∧ (s.modCam c f).poisoned = s.poisoned ∧
    (s.modCam c f).tableBase = s.tableBase ∧ (s.modCam c f).spillBase = s.spillBase ∧ (s.modCam c f).tlb = s.tlb ∧
    (s.modCam c f).sharedTlb = s.sharedTlb ∧ (s.modCam c f).faults = s.faults ∧
    (s.modCam c f).faultWait = s.faultWait ∧ (s.modCam c f).lastFault = s.lastFault ∧ (s.modCam c f).dma = s.dma ∧
    (s.modCam c f).dram = s.dram ∧ (s.modCam c f).fetched = s.fetched ∧ (s.modCam c f).inflaters = s.inflaters ∧
    (s.modCam c f).jobs = s.jobs ∧ (s.modCam c f).freed = s.freed ∧ (s.modCam c f).evtQ = s.evtQ ∧
    (s.modCam c f).evtWait = s.evtWait ∧ (s.modCam c f).evtLost = s.evtLost ∧ (s.modCam c f).mirror = s.mirror ∧
    (s.modCam c f).mirrorNext = s.mirrorNext ∧ (s.modCam c f).mirrorHeld = s.mirrorHeld ∧
    (s.modCam c f).cal = s.cal ∧ (s.modCam c f).records = s.records ∧ (s.modCam c f).pkg = s.pkg ∧
    (s.modCam c f).supply = s.supply ∧ (s.modCam c f).sec = s.sec ∧ (s.modCam c f).recovery = s.recovery ∧
    (s.modCam c f).resumeAvailable = s.resumeAvailable ∧ (s.modCam c f).resumeArm = s.resumeArm ∧
    (s.modCam c f).overload = s.overload ∧ (s.modCam c f).nv = s.nv := by
  and_intros <;> rfl

/-- Changing a plane changes nothing else. -/
@[simp] theorem State.modPlane_frame (s : State) (k : PlaneId) (f : Plane → Plane) :
    (s.modPlane k f).pending = s.pending ∧ (s.modPlane k f).free = s.free ∧ (s.modPlane k f).tick = s.tick ∧
    (s.modPlane k f).tickEnd = s.tickEnd ∧ (s.modPlane k f).modState = s.modState ∧
    (s.modPlane k f).prevState = s.prevState ∧ (s.modPlane k f).cause = s.cause ∧
    (s.modPlane k f).entryTick = s.entryTick ∧ (s.modPlane k f).commandStatus = s.commandStatus ∧
    (s.modPlane k f).safeCauses = s.safeCauses ∧ (s.modPlane k f).safetyOk = s.safetyOk ∧
    (s.modPlane k f).answer = s.answer ∧ (s.modPlane k f).answerData = s.answerData ∧
    (s.modPlane k f).sent = s.sent ∧ (s.modPlane k f).dict = s.dict ∧ (s.modPlane k f).blobs = s.blobs ∧
    (s.modPlane k f).armDict = s.armDict ∧ (s.modPlane k f).layer = s.layer ∧
    (s.modPlane k f).engines = s.engines ∧ (s.modPlane k f).contexts = s.contexts ∧
    (s.modPlane k f).lasers = s.lasers ∧ (s.modPlane k f).claims = s.claims ∧
    (s.modPlane k f).decidedAt = s.decidedAt ∧ (s.modPlane k f).claimSerial = s.claimSerial ∧
    (s.modPlane k f).remainders = s.remainders ∧ (s.modPlane k f).tokens = s.tokens ∧
    (s.modPlane k f).spare = s.spare ∧ (s.modPlane k f).ledger = s.ledger ∧ (s.modPlane k f).lanes = s.lanes ∧
    (s.modPlane k f).capture = s.capture ∧ (s.modPlane k f).aout = s.aout ∧ (s.modPlane k f).axes = s.axes ∧
    (s.modPlane k f).cams = s.cams ∧ (s.modPlane k f).comp = s.comp ∧ (s.modPlane k f).petals = s.petals ∧
    (s.modPlane k f).scanNumber = s.scanNumber ∧ (s.modPlane k f).sessions = s.sessions ∧
    (s.modPlane k f).nodes = s.nodes ∧ (s.modPlane k f).ringUp = s.ringUp ∧ (s.modPlane k f).ringV4 = s.ringV4 ∧
    (s.modPlane k f).uplinkV4 = s.uplinkV4 ∧ (s.modPlane k f).announceAt = s.announceAt ∧
    (s.modPlane k f).duplicateAt = s.duplicateAt ∧ (s.modPlane k f).discardAt = s.discardAt ∧
    (s.modPlane k f).discardSince = s.discardSince ∧ (s.modPlane k f).runningMinor = s.runningMinor ∧
    (s.modPlane k f).minorSetBy = s.minorSetBy ∧ (s.modPlane k f).profileBusy = s.profileBusy ∧
    (s.modPlane k f).profileTarget = s.profileTarget ∧ (s.modPlane k f).profileFailed = s.profileFailed ∧
    (s.modPlane k f).profileCause = s.profileCause ∧ (s.modPlane k f).activeProfile = s.activeProfile ∧
    (s.modPlane k f).pinSelection = s.pinSelection ∧ (s.modPlane k f).time = s.time ∧
    (s.modPlane k f).mem = s.mem ∧ (s.modPlane k f).poisoned = s.poisoned ∧
    (s.modPlane k f).tableBase = s.tableBase ∧ (s.modPlane k f).spillBase = s.spillBase ∧
    (s.modPlane k f).tlb = s.tlb ∧ (s.modPlane k f).sharedTlb = s.sharedTlb ∧ (s.modPlane k f).faults = s.faults ∧
    (s.modPlane k f).faultWait = s.faultWait ∧ (s.modPlane k f).lastFault = s.lastFault ∧
    (s.modPlane k f).dma = s.dma ∧ (s.modPlane k f).dram = s.dram ∧ (s.modPlane k f).fetched = s.fetched ∧
    (s.modPlane k f).inflaters = s.inflaters ∧ (s.modPlane k f).jobs = s.jobs ∧ (s.modPlane k f).freed = s.freed ∧
    (s.modPlane k f).evtQ = s.evtQ ∧ (s.modPlane k f).evtWait = s.evtWait ∧ (s.modPlane k f).evtLost = s.evtLost ∧
    (s.modPlane k f).mirror = s.mirror ∧ (s.modPlane k f).mirrorNext = s.mirrorNext ∧
    (s.modPlane k f).mirrorHeld = s.mirrorHeld ∧ (s.modPlane k f).cal = s.cal ∧
    (s.modPlane k f).records = s.records ∧ (s.modPlane k f).pkg = s.pkg ∧ (s.modPlane k f).supply = s.supply ∧
    (s.modPlane k f).sec = s.sec ∧ (s.modPlane k f).recovery = s.recovery ∧
    (s.modPlane k f).resumeAvailable = s.resumeAvailable ∧ (s.modPlane k f).resumeArm = s.resumeArm ∧
    (s.modPlane k f).overload = s.overload ∧ (s.modPlane k f).nv = s.nv := by
  and_intros <;> rfl

/-- Changing a petal changes nothing else. -/
@[simp] theorem State.modPetal_frame (s : State) (t : PetalId) (f : Petal → Petal) :
    (s.modPetal t f).pending = s.pending ∧ (s.modPetal t f).free = s.free ∧ (s.modPetal t f).tick = s.tick ∧
    (s.modPetal t f).tickEnd = s.tickEnd ∧ (s.modPetal t f).modState = s.modState ∧
    (s.modPetal t f).prevState = s.prevState ∧ (s.modPetal t f).cause = s.cause ∧
    (s.modPetal t f).entryTick = s.entryTick ∧ (s.modPetal t f).commandStatus = s.commandStatus ∧
    (s.modPetal t f).safeCauses = s.safeCauses ∧ (s.modPetal t f).safetyOk = s.safetyOk ∧
    (s.modPetal t f).answer = s.answer ∧ (s.modPetal t f).answerData = s.answerData ∧
    (s.modPetal t f).sent = s.sent ∧ (s.modPetal t f).dict = s.dict ∧ (s.modPetal t f).blobs = s.blobs ∧
    (s.modPetal t f).armDict = s.armDict ∧ (s.modPetal t f).layer = s.layer ∧
    (s.modPetal t f).engines = s.engines ∧ (s.modPetal t f).contexts = s.contexts ∧
    (s.modPetal t f).lasers = s.lasers ∧ (s.modPetal t f).claims = s.claims ∧
    (s.modPetal t f).decidedAt = s.decidedAt ∧ (s.modPetal t f).claimSerial = s.claimSerial ∧
    (s.modPetal t f).remainders = s.remainders ∧ (s.modPetal t f).tokens = s.tokens ∧
    (s.modPetal t f).spare = s.spare ∧ (s.modPetal t f).ledger = s.ledger ∧ (s.modPetal t f).lanes = s.lanes ∧
    (s.modPetal t f).capture = s.capture ∧ (s.modPetal t f).aout = s.aout ∧ (s.modPetal t f).axes = s.axes ∧
    (s.modPetal t f).cams = s.cams ∧ (s.modPetal t f).planes = s.planes ∧ (s.modPetal t f).comp = s.comp ∧
    (s.modPetal t f).scanNumber = s.scanNumber ∧ (s.modPetal t f).sessions = s.sessions ∧
    (s.modPetal t f).nodes = s.nodes ∧ (s.modPetal t f).ringUp = s.ringUp ∧ (s.modPetal t f).ringV4 = s.ringV4 ∧
    (s.modPetal t f).uplinkV4 = s.uplinkV4 ∧ (s.modPetal t f).announceAt = s.announceAt ∧
    (s.modPetal t f).duplicateAt = s.duplicateAt ∧ (s.modPetal t f).discardAt = s.discardAt ∧
    (s.modPetal t f).discardSince = s.discardSince ∧ (s.modPetal t f).runningMinor = s.runningMinor ∧
    (s.modPetal t f).minorSetBy = s.minorSetBy ∧ (s.modPetal t f).profileBusy = s.profileBusy ∧
    (s.modPetal t f).profileTarget = s.profileTarget ∧ (s.modPetal t f).profileFailed = s.profileFailed ∧
    (s.modPetal t f).profileCause = s.profileCause ∧ (s.modPetal t f).activeProfile = s.activeProfile ∧
    (s.modPetal t f).pinSelection = s.pinSelection ∧ (s.modPetal t f).time = s.time ∧
    (s.modPetal t f).mem = s.mem ∧ (s.modPetal t f).poisoned = s.poisoned ∧
    (s.modPetal t f).tableBase = s.tableBase ∧ (s.modPetal t f).spillBase = s.spillBase ∧
    (s.modPetal t f).tlb = s.tlb ∧ (s.modPetal t f).sharedTlb = s.sharedTlb ∧ (s.modPetal t f).faults = s.faults ∧
    (s.modPetal t f).faultWait = s.faultWait ∧ (s.modPetal t f).lastFault = s.lastFault ∧
    (s.modPetal t f).dma = s.dma ∧ (s.modPetal t f).dram = s.dram ∧ (s.modPetal t f).fetched = s.fetched ∧
    (s.modPetal t f).inflaters = s.inflaters ∧ (s.modPetal t f).jobs = s.jobs ∧ (s.modPetal t f).freed = s.freed ∧
    (s.modPetal t f).evtQ = s.evtQ ∧ (s.modPetal t f).evtWait = s.evtWait ∧ (s.modPetal t f).evtLost = s.evtLost ∧
    (s.modPetal t f).mirror = s.mirror ∧ (s.modPetal t f).mirrorNext = s.mirrorNext ∧
    (s.modPetal t f).mirrorHeld = s.mirrorHeld ∧ (s.modPetal t f).cal = s.cal ∧
    (s.modPetal t f).records = s.records ∧ (s.modPetal t f).pkg = s.pkg ∧ (s.modPetal t f).supply = s.supply ∧
    (s.modPetal t f).sec = s.sec ∧ (s.modPetal t f).recovery = s.recovery ∧
    (s.modPetal t f).resumeAvailable = s.resumeAvailable ∧ (s.modPetal t f).resumeArm = s.resumeArm ∧
    (s.modPetal t f).overload = s.overload ∧ (s.modPetal t f).nv = s.nv := by
  and_intros <;> rfl

/-- Changing a memory channel changes nothing else. -/
@[simp] theorem State.modDram_frame (s : State) (c : ChanId) (f : Dram → Dram) :
    (s.modDram c f).pending = s.pending ∧ (s.modDram c f).free = s.free ∧ (s.modDram c f).tick = s.tick ∧
    (s.modDram c f).tickEnd = s.tickEnd ∧ (s.modDram c f).modState = s.modState ∧
    (s.modDram c f).prevState = s.prevState ∧ (s.modDram c f).cause = s.cause ∧
    (s.modDram c f).entryTick = s.entryTick ∧ (s.modDram c f).commandStatus = s.commandStatus ∧
    (s.modDram c f).safeCauses = s.safeCauses ∧ (s.modDram c f).safetyOk = s.safetyOk ∧
    (s.modDram c f).answer = s.answer ∧ (s.modDram c f).answerData = s.answerData ∧ (s.modDram c f).sent = s.sent ∧
    (s.modDram c f).dict = s.dict ∧ (s.modDram c f).blobs = s.blobs ∧ (s.modDram c f).armDict = s.armDict ∧
    (s.modDram c f).layer = s.layer ∧ (s.modDram c f).engines = s.engines ∧ (s.modDram c f).contexts = s.contexts ∧
    (s.modDram c f).lasers = s.lasers ∧ (s.modDram c f).claims = s.claims ∧
    (s.modDram c f).decidedAt = s.decidedAt ∧ (s.modDram c f).claimSerial = s.claimSerial ∧
    (s.modDram c f).remainders = s.remainders ∧ (s.modDram c f).tokens = s.tokens ∧
    (s.modDram c f).spare = s.spare ∧ (s.modDram c f).ledger = s.ledger ∧ (s.modDram c f).lanes = s.lanes ∧
    (s.modDram c f).capture = s.capture ∧ (s.modDram c f).aout = s.aout ∧ (s.modDram c f).axes = s.axes ∧
    (s.modDram c f).cams = s.cams ∧ (s.modDram c f).planes = s.planes ∧ (s.modDram c f).comp = s.comp ∧
    (s.modDram c f).petals = s.petals ∧ (s.modDram c f).scanNumber = s.scanNumber ∧
    (s.modDram c f).sessions = s.sessions ∧ (s.modDram c f).nodes = s.nodes ∧ (s.modDram c f).ringUp = s.ringUp ∧
    (s.modDram c f).ringV4 = s.ringV4 ∧ (s.modDram c f).uplinkV4 = s.uplinkV4 ∧
    (s.modDram c f).announceAt = s.announceAt ∧ (s.modDram c f).duplicateAt = s.duplicateAt ∧
    (s.modDram c f).discardAt = s.discardAt ∧ (s.modDram c f).discardSince = s.discardSince ∧
    (s.modDram c f).runningMinor = s.runningMinor ∧ (s.modDram c f).minorSetBy = s.minorSetBy ∧
    (s.modDram c f).profileBusy = s.profileBusy ∧ (s.modDram c f).profileTarget = s.profileTarget ∧
    (s.modDram c f).profileFailed = s.profileFailed ∧ (s.modDram c f).profileCause = s.profileCause ∧
    (s.modDram c f).activeProfile = s.activeProfile ∧ (s.modDram c f).pinSelection = s.pinSelection ∧
    (s.modDram c f).time = s.time ∧ (s.modDram c f).mem = s.mem ∧ (s.modDram c f).poisoned = s.poisoned ∧
    (s.modDram c f).tableBase = s.tableBase ∧ (s.modDram c f).spillBase = s.spillBase ∧
    (s.modDram c f).tlb = s.tlb ∧ (s.modDram c f).sharedTlb = s.sharedTlb ∧ (s.modDram c f).faults = s.faults ∧
    (s.modDram c f).faultWait = s.faultWait ∧ (s.modDram c f).lastFault = s.lastFault ∧
    (s.modDram c f).dma = s.dma ∧ (s.modDram c f).fetched = s.fetched ∧ (s.modDram c f).inflaters = s.inflaters ∧
    (s.modDram c f).jobs = s.jobs ∧ (s.modDram c f).freed = s.freed ∧ (s.modDram c f).evtQ = s.evtQ ∧
    (s.modDram c f).evtWait = s.evtWait ∧ (s.modDram c f).evtLost = s.evtLost ∧ (s.modDram c f).mirror = s.mirror ∧
    (s.modDram c f).mirrorNext = s.mirrorNext ∧ (s.modDram c f).mirrorHeld = s.mirrorHeld ∧
    (s.modDram c f).cal = s.cal ∧ (s.modDram c f).records = s.records ∧ (s.modDram c f).pkg = s.pkg ∧
    (s.modDram c f).supply = s.supply ∧ (s.modDram c f).sec = s.sec ∧ (s.modDram c f).recovery = s.recovery ∧
    (s.modDram c f).resumeAvailable = s.resumeAvailable ∧ (s.modDram c f).resumeArm = s.resumeArm ∧
    (s.modDram c f).overload = s.overload ∧ (s.modDram c f).nv = s.nv := by
  and_intros <;> rfl

/-- Changing a token changes nothing else. -/
@[simp] theorem State.modToken_frame (s : State) (k : TokenId) (f : Token → Token) :
    (s.modToken k f).pending = s.pending ∧ (s.modToken k f).free = s.free ∧ (s.modToken k f).tick = s.tick ∧
    (s.modToken k f).tickEnd = s.tickEnd ∧ (s.modToken k f).modState = s.modState ∧
    (s.modToken k f).prevState = s.prevState ∧ (s.modToken k f).cause = s.cause ∧
    (s.modToken k f).entryTick = s.entryTick ∧ (s.modToken k f).commandStatus = s.commandStatus ∧
    (s.modToken k f).safeCauses = s.safeCauses ∧ (s.modToken k f).safetyOk = s.safetyOk ∧
    (s.modToken k f).answer = s.answer ∧ (s.modToken k f).answerData = s.answerData ∧
    (s.modToken k f).sent = s.sent ∧ (s.modToken k f).dict = s.dict ∧ (s.modToken k f).blobs = s.blobs ∧
    (s.modToken k f).armDict = s.armDict ∧ (s.modToken k f).layer = s.layer ∧
    (s.modToken k f).engines = s.engines ∧ (s.modToken k f).contexts = s.contexts ∧
    (s.modToken k f).lasers = s.lasers ∧ (s.modToken k f).claims = s.claims ∧
    (s.modToken k f).decidedAt = s.decidedAt ∧ (s.modToken k f).claimSerial = s.claimSerial ∧
    (s.modToken k f).remainders = s.remainders ∧ (s.modToken k f).spare = s.spare ∧
    (s.modToken k f).ledger = s.ledger ∧ (s.modToken k f).lanes = s.lanes ∧ (s.modToken k f).capture = s.capture ∧
    (s.modToken k f).aout = s.aout ∧ (s.modToken k f).axes = s.axes ∧ (s.modToken k f).cams = s.cams ∧
    (s.modToken k f).planes = s.planes ∧ (s.modToken k f).comp = s.comp ∧ (s.modToken k f).petals = s.petals ∧
    (s.modToken k f).scanNumber = s.scanNumber ∧ (s.modToken k f).sessions = s.sessions ∧
    (s.modToken k f).nodes = s.nodes ∧ (s.modToken k f).ringUp = s.ringUp ∧ (s.modToken k f).ringV4 = s.ringV4 ∧
    (s.modToken k f).uplinkV4 = s.uplinkV4 ∧ (s.modToken k f).announceAt = s.announceAt ∧
    (s.modToken k f).duplicateAt = s.duplicateAt ∧ (s.modToken k f).discardAt = s.discardAt ∧
    (s.modToken k f).discardSince = s.discardSince ∧ (s.modToken k f).runningMinor = s.runningMinor ∧
    (s.modToken k f).minorSetBy = s.minorSetBy ∧ (s.modToken k f).profileBusy = s.profileBusy ∧
    (s.modToken k f).profileTarget = s.profileTarget ∧ (s.modToken k f).profileFailed = s.profileFailed ∧
    (s.modToken k f).profileCause = s.profileCause ∧ (s.modToken k f).activeProfile = s.activeProfile ∧
    (s.modToken k f).pinSelection = s.pinSelection ∧ (s.modToken k f).time = s.time ∧
    (s.modToken k f).mem = s.mem ∧ (s.modToken k f).poisoned = s.poisoned ∧
    (s.modToken k f).tableBase = s.tableBase ∧ (s.modToken k f).spillBase = s.spillBase ∧
    (s.modToken k f).tlb = s.tlb ∧ (s.modToken k f).sharedTlb = s.sharedTlb ∧ (s.modToken k f).faults = s.faults ∧
    (s.modToken k f).faultWait = s.faultWait ∧ (s.modToken k f).lastFault = s.lastFault ∧
    (s.modToken k f).dma = s.dma ∧ (s.modToken k f).dram = s.dram ∧ (s.modToken k f).fetched = s.fetched ∧
    (s.modToken k f).inflaters = s.inflaters ∧ (s.modToken k f).jobs = s.jobs ∧ (s.modToken k f).freed = s.freed ∧
    (s.modToken k f).evtQ = s.evtQ ∧ (s.modToken k f).evtWait = s.evtWait ∧ (s.modToken k f).evtLost = s.evtLost ∧
    (s.modToken k f).mirror = s.mirror ∧ (s.modToken k f).mirrorNext = s.mirrorNext ∧
    (s.modToken k f).mirrorHeld = s.mirrorHeld ∧ (s.modToken k f).cal = s.cal ∧
    (s.modToken k f).records = s.records ∧ (s.modToken k f).pkg = s.pkg ∧ (s.modToken k f).supply = s.supply ∧
    (s.modToken k f).sec = s.sec ∧ (s.modToken k f).recovery = s.recovery ∧
    (s.modToken k f).resumeAvailable = s.resumeAvailable ∧ (s.modToken k f).resumeArm = s.resumeArm ∧
    (s.modToken k f).overload = s.overload ∧ (s.modToken k f).nv = s.nv := by
  and_intros <;> rfl

/-- Changing an inflater changes nothing else. -/
@[simp] theorem State.modInflater_frame (s : State) (i : Fin 2) (f : Inflater → Inflater) :
    (s.modInflater i f).pending = s.pending ∧ (s.modInflater i f).free = s.free ∧
    (s.modInflater i f).tick = s.tick ∧ (s.modInflater i f).tickEnd = s.tickEnd ∧
    (s.modInflater i f).modState = s.modState ∧ (s.modInflater i f).prevState = s.prevState ∧
    (s.modInflater i f).cause = s.cause ∧ (s.modInflater i f).entryTick = s.entryTick ∧
    (s.modInflater i f).commandStatus = s.commandStatus ∧ (s.modInflater i f).safeCauses = s.safeCauses ∧
    (s.modInflater i f).safetyOk = s.safetyOk ∧ (s.modInflater i f).answer = s.answer ∧
    (s.modInflater i f).answerData = s.answerData ∧ (s.modInflater i f).sent = s.sent ∧
    (s.modInflater i f).dict = s.dict ∧ (s.modInflater i f).blobs = s.blobs ∧
    (s.modInflater i f).armDict = s.armDict ∧ (s.modInflater i f).layer = s.layer ∧
    (s.modInflater i f).engines = s.engines ∧ (s.modInflater i f).contexts = s.contexts ∧
    (s.modInflater i f).lasers = s.lasers ∧ (s.modInflater i f).claims = s.claims ∧
    (s.modInflater i f).decidedAt = s.decidedAt ∧ (s.modInflater i f).claimSerial = s.claimSerial ∧
    (s.modInflater i f).remainders = s.remainders ∧ (s.modInflater i f).tokens = s.tokens ∧
    (s.modInflater i f).spare = s.spare ∧ (s.modInflater i f).ledger = s.ledger ∧
    (s.modInflater i f).lanes = s.lanes ∧ (s.modInflater i f).capture = s.capture ∧
    (s.modInflater i f).aout = s.aout ∧ (s.modInflater i f).axes = s.axes ∧ (s.modInflater i f).cams = s.cams ∧
    (s.modInflater i f).planes = s.planes ∧ (s.modInflater i f).comp = s.comp ∧
    (s.modInflater i f).petals = s.petals ∧ (s.modInflater i f).scanNumber = s.scanNumber ∧
    (s.modInflater i f).sessions = s.sessions ∧ (s.modInflater i f).nodes = s.nodes ∧
    (s.modInflater i f).ringUp = s.ringUp ∧ (s.modInflater i f).ringV4 = s.ringV4 ∧
    (s.modInflater i f).uplinkV4 = s.uplinkV4 ∧ (s.modInflater i f).announceAt = s.announceAt ∧
    (s.modInflater i f).duplicateAt = s.duplicateAt ∧ (s.modInflater i f).discardAt = s.discardAt ∧
    (s.modInflater i f).discardSince = s.discardSince ∧ (s.modInflater i f).runningMinor = s.runningMinor ∧
    (s.modInflater i f).minorSetBy = s.minorSetBy ∧ (s.modInflater i f).profileBusy = s.profileBusy ∧
    (s.modInflater i f).profileTarget = s.profileTarget ∧ (s.modInflater i f).profileFailed = s.profileFailed ∧
    (s.modInflater i f).profileCause = s.profileCause ∧ (s.modInflater i f).activeProfile = s.activeProfile ∧
    (s.modInflater i f).pinSelection = s.pinSelection ∧ (s.modInflater i f).time = s.time ∧
    (s.modInflater i f).mem = s.mem ∧ (s.modInflater i f).poisoned = s.poisoned ∧
    (s.modInflater i f).tableBase = s.tableBase ∧ (s.modInflater i f).spillBase = s.spillBase ∧
    (s.modInflater i f).tlb = s.tlb ∧ (s.modInflater i f).sharedTlb = s.sharedTlb ∧
    (s.modInflater i f).faults = s.faults ∧ (s.modInflater i f).faultWait = s.faultWait ∧
    (s.modInflater i f).lastFault = s.lastFault ∧ (s.modInflater i f).dma = s.dma ∧
    (s.modInflater i f).dram = s.dram ∧ (s.modInflater i f).fetched = s.fetched ∧
    (s.modInflater i f).jobs = s.jobs ∧ (s.modInflater i f).freed = s.freed ∧ (s.modInflater i f).evtQ = s.evtQ ∧
    (s.modInflater i f).evtWait = s.evtWait ∧ (s.modInflater i f).evtLost = s.evtLost ∧
    (s.modInflater i f).mirror = s.mirror ∧ (s.modInflater i f).mirrorNext = s.mirrorNext ∧
    (s.modInflater i f).mirrorHeld = s.mirrorHeld ∧ (s.modInflater i f).cal = s.cal ∧
    (s.modInflater i f).records = s.records ∧ (s.modInflater i f).pkg = s.pkg ∧
    (s.modInflater i f).supply = s.supply ∧ (s.modInflater i f).sec = s.sec ∧
    (s.modInflater i f).recovery = s.recovery ∧ (s.modInflater i f).resumeAvailable = s.resumeAvailable ∧
    (s.modInflater i f).resumeArm = s.resumeArm ∧ (s.modInflater i f).overload = s.overload ∧
    (s.modInflater i f).nv = s.nv := by
  and_intros <;> rfl

/-- Changing a session changes nothing else. -/
@[simp] theorem State.modSession_frame (s : State) (q : Sess) (f : Session → Session) :
    (s.modSession q f).pending = s.pending ∧ (s.modSession q f).free = s.free ∧ (s.modSession q f).tick = s.tick ∧
    (s.modSession q f).tickEnd = s.tickEnd ∧ (s.modSession q f).modState = s.modState ∧
    (s.modSession q f).prevState = s.prevState ∧ (s.modSession q f).cause = s.cause ∧
    (s.modSession q f).entryTick = s.entryTick ∧ (s.modSession q f).commandStatus = s.commandStatus ∧
    (s.modSession q f).safeCauses = s.safeCauses ∧ (s.modSession q f).safetyOk = s.safetyOk ∧
    (s.modSession q f).answer = s.answer ∧ (s.modSession q f).answerData = s.answerData ∧
    (s.modSession q f).sent = s.sent ∧ (s.modSession q f).dict = s.dict ∧ (s.modSession q f).blobs = s.blobs ∧
    (s.modSession q f).armDict = s.armDict ∧ (s.modSession q f).layer = s.layer ∧
    (s.modSession q f).engines = s.engines ∧ (s.modSession q f).contexts = s.contexts ∧
    (s.modSession q f).lasers = s.lasers ∧ (s.modSession q f).claims = s.claims ∧
    (s.modSession q f).decidedAt = s.decidedAt ∧ (s.modSession q f).claimSerial = s.claimSerial ∧
    (s.modSession q f).remainders = s.remainders ∧ (s.modSession q f).tokens = s.tokens ∧
    (s.modSession q f).spare = s.spare ∧ (s.modSession q f).ledger = s.ledger ∧
    (s.modSession q f).lanes = s.lanes ∧ (s.modSession q f).capture = s.capture ∧
    (s.modSession q f).aout = s.aout ∧ (s.modSession q f).axes = s.axes ∧ (s.modSession q f).cams = s.cams ∧
    (s.modSession q f).planes = s.planes ∧ (s.modSession q f).comp = s.comp ∧
    (s.modSession q f).petals = s.petals ∧ (s.modSession q f).scanNumber = s.scanNumber ∧
    (s.modSession q f).nodes = s.nodes ∧ (s.modSession q f).ringUp = s.ringUp ∧
    (s.modSession q f).ringV4 = s.ringV4 ∧ (s.modSession q f).uplinkV4 = s.uplinkV4 ∧
    (s.modSession q f).announceAt = s.announceAt ∧ (s.modSession q f).duplicateAt = s.duplicateAt ∧
    (s.modSession q f).discardAt = s.discardAt ∧ (s.modSession q f).discardSince = s.discardSince ∧
    (s.modSession q f).runningMinor = s.runningMinor ∧ (s.modSession q f).minorSetBy = s.minorSetBy ∧
    (s.modSession q f).profileBusy = s.profileBusy ∧ (s.modSession q f).profileTarget = s.profileTarget ∧
    (s.modSession q f).profileFailed = s.profileFailed ∧ (s.modSession q f).profileCause = s.profileCause ∧
    (s.modSession q f).activeProfile = s.activeProfile ∧ (s.modSession q f).pinSelection = s.pinSelection ∧
    (s.modSession q f).time = s.time ∧ (s.modSession q f).mem = s.mem ∧ (s.modSession q f).poisoned = s.poisoned ∧
    (s.modSession q f).tableBase = s.tableBase ∧ (s.modSession q f).spillBase = s.spillBase ∧
    (s.modSession q f).tlb = s.tlb ∧ (s.modSession q f).sharedTlb = s.sharedTlb ∧
    (s.modSession q f).faults = s.faults ∧ (s.modSession q f).faultWait = s.faultWait ∧
    (s.modSession q f).lastFault = s.lastFault ∧ (s.modSession q f).dma = s.dma ∧
    (s.modSession q f).dram = s.dram ∧ (s.modSession q f).fetched = s.fetched ∧
    (s.modSession q f).inflaters = s.inflaters ∧ (s.modSession q f).jobs = s.jobs ∧
    (s.modSession q f).freed = s.freed ∧ (s.modSession q f).evtQ = s.evtQ ∧
    (s.modSession q f).evtWait = s.evtWait ∧ (s.modSession q f).evtLost = s.evtLost ∧
    (s.modSession q f).mirror = s.mirror ∧ (s.modSession q f).mirrorNext = s.mirrorNext ∧
    (s.modSession q f).mirrorHeld = s.mirrorHeld ∧ (s.modSession q f).cal = s.cal ∧
    (s.modSession q f).records = s.records ∧ (s.modSession q f).pkg = s.pkg ∧
    (s.modSession q f).supply = s.supply ∧ (s.modSession q f).sec = s.sec ∧
    (s.modSession q f).recovery = s.recovery ∧ (s.modSession q f).resumeAvailable = s.resumeAvailable ∧
    (s.modSession q f).resumeArm = s.resumeArm ∧ (s.modSession q f).overload = s.overload ∧
    (s.modSession q f).nv = s.nv := by
  and_intros <;> rfl

/-- Changing a numeric entry changes nothing else. -/
@[simp] theorem State.put_frame (s : State) (index sub : Nat) (v : Int) :
    (s.put index sub v).pending = s.pending ∧ (s.put index sub v).free = s.free ∧
    (s.put index sub v).tick = s.tick ∧ (s.put index sub v).tickEnd = s.tickEnd ∧
    (s.put index sub v).modState = s.modState ∧ (s.put index sub v).prevState = s.prevState ∧
    (s.put index sub v).cause = s.cause ∧ (s.put index sub v).entryTick = s.entryTick ∧
    (s.put index sub v).commandStatus = s.commandStatus ∧ (s.put index sub v).safeCauses = s.safeCauses ∧
    (s.put index sub v).safetyOk = s.safetyOk ∧ (s.put index sub v).answer = s.answer ∧
    (s.put index sub v).answerData = s.answerData ∧ (s.put index sub v).sent = s.sent ∧
    (s.put index sub v).blobs = s.blobs ∧ (s.put index sub v).armDict = s.armDict ∧
    (s.put index sub v).layer = s.layer ∧ (s.put index sub v).engines = s.engines ∧
    (s.put index sub v).contexts = s.contexts ∧ (s.put index sub v).lasers = s.lasers ∧
    (s.put index sub v).claims = s.claims ∧ (s.put index sub v).decidedAt = s.decidedAt ∧
    (s.put index sub v).claimSerial = s.claimSerial ∧ (s.put index sub v).remainders = s.remainders ∧
    (s.put index sub v).tokens = s.tokens ∧ (s.put index sub v).spare = s.spare ∧
    (s.put index sub v).ledger = s.ledger ∧ (s.put index sub v).lanes = s.lanes ∧
    (s.put index sub v).capture = s.capture ∧ (s.put index sub v).aout = s.aout ∧
    (s.put index sub v).axes = s.axes ∧ (s.put index sub v).cams = s.cams ∧ (s.put index sub v).planes = s.planes ∧
    (s.put index sub v).comp = s.comp ∧ (s.put index sub v).petals = s.petals ∧
    (s.put index sub v).scanNumber = s.scanNumber ∧ (s.put index sub v).sessions = s.sessions ∧
    (s.put index sub v).nodes = s.nodes ∧ (s.put index sub v).ringUp = s.ringUp ∧
    (s.put index sub v).ringV4 = s.ringV4 ∧ (s.put index sub v).uplinkV4 = s.uplinkV4 ∧
    (s.put index sub v).announceAt = s.announceAt ∧ (s.put index sub v).duplicateAt = s.duplicateAt ∧
    (s.put index sub v).discardAt = s.discardAt ∧ (s.put index sub v).discardSince = s.discardSince ∧
    (s.put index sub v).runningMinor = s.runningMinor ∧ (s.put index sub v).minorSetBy = s.minorSetBy ∧
    (s.put index sub v).profileBusy = s.profileBusy ∧ (s.put index sub v).profileTarget = s.profileTarget ∧
    (s.put index sub v).profileFailed = s.profileFailed ∧ (s.put index sub v).profileCause = s.profileCause ∧
    (s.put index sub v).activeProfile = s.activeProfile ∧ (s.put index sub v).pinSelection = s.pinSelection ∧
    (s.put index sub v).time = s.time ∧ (s.put index sub v).mem = s.mem ∧
    (s.put index sub v).poisoned = s.poisoned ∧ (s.put index sub v).tableBase = s.tableBase ∧
    (s.put index sub v).spillBase = s.spillBase ∧ (s.put index sub v).tlb = s.tlb ∧
    (s.put index sub v).sharedTlb = s.sharedTlb ∧ (s.put index sub v).faults = s.faults ∧
    (s.put index sub v).faultWait = s.faultWait ∧ (s.put index sub v).lastFault = s.lastFault ∧
    (s.put index sub v).dma = s.dma ∧ (s.put index sub v).dram = s.dram ∧ (s.put index sub v).fetched = s.fetched ∧
    (s.put index sub v).inflaters = s.inflaters ∧ (s.put index sub v).jobs = s.jobs ∧
    (s.put index sub v).freed = s.freed ∧ (s.put index sub v).evtQ = s.evtQ ∧
    (s.put index sub v).evtWait = s.evtWait ∧ (s.put index sub v).evtLost = s.evtLost ∧
    (s.put index sub v).mirror = s.mirror ∧ (s.put index sub v).mirrorNext = s.mirrorNext ∧
    (s.put index sub v).mirrorHeld = s.mirrorHeld ∧ (s.put index sub v).cal = s.cal ∧
    (s.put index sub v).records = s.records ∧ (s.put index sub v).pkg = s.pkg ∧
    (s.put index sub v).supply = s.supply ∧ (s.put index sub v).sec = s.sec ∧
    (s.put index sub v).recovery = s.recovery ∧ (s.put index sub v).resumeAvailable = s.resumeAvailable ∧
    (s.put index sub v).resumeArm = s.resumeArm ∧ (s.put index sub v).overload = s.overload ∧
    (s.put index sub v).nv = s.nv := by
  and_intros <;> rfl

/-- Changing an octet-string entry changes nothing else. -/
@[simp] theorem State.putBlob_frame (s : State) (index sub : Nat) (v : Bytes) :
    (s.putBlob index sub v).pending = s.pending ∧ (s.putBlob index sub v).free = s.free ∧
    (s.putBlob index sub v).tick = s.tick ∧ (s.putBlob index sub v).tickEnd = s.tickEnd ∧
    (s.putBlob index sub v).modState = s.modState ∧ (s.putBlob index sub v).prevState = s.prevState ∧
    (s.putBlob index sub v).cause = s.cause ∧ (s.putBlob index sub v).entryTick = s.entryTick ∧
    (s.putBlob index sub v).commandStatus = s.commandStatus ∧ (s.putBlob index sub v).safeCauses = s.safeCauses ∧
    (s.putBlob index sub v).safetyOk = s.safetyOk ∧ (s.putBlob index sub v).answer = s.answer ∧
    (s.putBlob index sub v).answerData = s.answerData ∧ (s.putBlob index sub v).sent = s.sent ∧
    (s.putBlob index sub v).dict = s.dict ∧ (s.putBlob index sub v).armDict = s.armDict ∧
    (s.putBlob index sub v).layer = s.layer ∧ (s.putBlob index sub v).engines = s.engines ∧
    (s.putBlob index sub v).contexts = s.contexts ∧ (s.putBlob index sub v).lasers = s.lasers ∧
    (s.putBlob index sub v).claims = s.claims ∧ (s.putBlob index sub v).decidedAt = s.decidedAt ∧
    (s.putBlob index sub v).claimSerial = s.claimSerial ∧ (s.putBlob index sub v).remainders = s.remainders ∧
    (s.putBlob index sub v).tokens = s.tokens ∧ (s.putBlob index sub v).spare = s.spare ∧
    (s.putBlob index sub v).ledger = s.ledger ∧ (s.putBlob index sub v).lanes = s.lanes ∧
    (s.putBlob index sub v).capture = s.capture ∧ (s.putBlob index sub v).aout = s.aout ∧
    (s.putBlob index sub v).axes = s.axes ∧ (s.putBlob index sub v).cams = s.cams ∧
    (s.putBlob index sub v).planes = s.planes ∧ (s.putBlob index sub v).comp = s.comp ∧
    (s.putBlob index sub v).petals = s.petals ∧ (s.putBlob index sub v).scanNumber = s.scanNumber ∧
    (s.putBlob index sub v).sessions = s.sessions ∧ (s.putBlob index sub v).nodes = s.nodes ∧
    (s.putBlob index sub v).ringUp = s.ringUp ∧ (s.putBlob index sub v).ringV4 = s.ringV4 ∧
    (s.putBlob index sub v).uplinkV4 = s.uplinkV4 ∧ (s.putBlob index sub v).announceAt = s.announceAt ∧
    (s.putBlob index sub v).duplicateAt = s.duplicateAt ∧ (s.putBlob index sub v).discardAt = s.discardAt ∧
    (s.putBlob index sub v).discardSince = s.discardSince ∧ (s.putBlob index sub v).runningMinor = s.runningMinor ∧
    (s.putBlob index sub v).minorSetBy = s.minorSetBy ∧ (s.putBlob index sub v).profileBusy = s.profileBusy ∧
    (s.putBlob index sub v).profileTarget = s.profileTarget ∧
    (s.putBlob index sub v).profileFailed = s.profileFailed ∧
    (s.putBlob index sub v).profileCause = s.profileCause ∧
    (s.putBlob index sub v).activeProfile = s.activeProfile ∧
    (s.putBlob index sub v).pinSelection = s.pinSelection ∧ (s.putBlob index sub v).time = s.time ∧
    (s.putBlob index sub v).mem = s.mem ∧ (s.putBlob index sub v).poisoned = s.poisoned ∧
    (s.putBlob index sub v).tableBase = s.tableBase ∧ (s.putBlob index sub v).spillBase = s.spillBase ∧
    (s.putBlob index sub v).tlb = s.tlb ∧ (s.putBlob index sub v).sharedTlb = s.sharedTlb ∧
    (s.putBlob index sub v).faults = s.faults ∧ (s.putBlob index sub v).faultWait = s.faultWait ∧
    (s.putBlob index sub v).lastFault = s.lastFault ∧ (s.putBlob index sub v).dma = s.dma ∧
    (s.putBlob index sub v).dram = s.dram ∧ (s.putBlob index sub v).fetched = s.fetched ∧
    (s.putBlob index sub v).inflaters = s.inflaters ∧ (s.putBlob index sub v).jobs = s.jobs ∧
    (s.putBlob index sub v).freed = s.freed ∧ (s.putBlob index sub v).evtQ = s.evtQ ∧
    (s.putBlob index sub v).evtWait = s.evtWait ∧ (s.putBlob index sub v).evtLost = s.evtLost ∧
    (s.putBlob index sub v).mirror = s.mirror ∧ (s.putBlob index sub v).mirrorNext = s.mirrorNext ∧
    (s.putBlob index sub v).mirrorHeld = s.mirrorHeld ∧ (s.putBlob index sub v).cal = s.cal ∧
    (s.putBlob index sub v).records = s.records ∧ (s.putBlob index sub v).pkg = s.pkg ∧
    (s.putBlob index sub v).supply = s.supply ∧ (s.putBlob index sub v).sec = s.sec ∧
    (s.putBlob index sub v).recovery = s.recovery ∧ (s.putBlob index sub v).resumeAvailable = s.resumeAvailable ∧
    (s.putBlob index sub v).resumeArm = s.resumeArm ∧ (s.putBlob index sub v).overload = s.overload ∧
    (s.putBlob index sub v).nv = s.nv := by
  and_intros <;> rfl

/-- Changing the answer changes nothing else. -/
@[simp] theorem State.reply_frame (s : State) (status : Nat) :
    (s.reply status).pending = s.pending ∧ (s.reply status).free = s.free ∧ (s.reply status).tick = s.tick ∧
    (s.reply status).tickEnd = s.tickEnd ∧ (s.reply status).modState = s.modState ∧
    (s.reply status).prevState = s.prevState ∧ (s.reply status).cause = s.cause ∧
    (s.reply status).entryTick = s.entryTick ∧ (s.reply status).commandStatus = s.commandStatus ∧
    (s.reply status).safeCauses = s.safeCauses ∧ (s.reply status).safetyOk = s.safetyOk ∧
    (s.reply status).answerData = s.answerData ∧ (s.reply status).sent = s.sent ∧ (s.reply status).dict = s.dict ∧
    (s.reply status).blobs = s.blobs ∧ (s.reply status).armDict = s.armDict ∧ (s.reply status).layer = s.layer ∧
    (s.reply status).engines = s.engines ∧ (s.reply status).contexts = s.contexts ∧
    (s.reply status).lasers = s.lasers ∧ (s.reply status).claims = s.claims ∧
    (s.reply status).decidedAt = s.decidedAt ∧ (s.reply status).claimSerial = s.claimSerial ∧
    (s.reply status).remainders = s.remainders ∧ (s.reply status).tokens = s.tokens ∧
    (s.reply status).spare = s.spare ∧ (s.reply status).ledger = s.ledger ∧ (s.reply status).lanes = s.lanes ∧
    (s.reply status).capture = s.capture ∧ (s.reply status).aout = s.aout ∧ (s.reply status).axes = s.axes ∧
    (s.reply status).cams = s.cams ∧ (s.reply status).planes = s.planes ∧ (s.reply status).comp = s.comp ∧
    (s.reply status).petals = s.petals ∧ (s.reply status).scanNumber = s.scanNumber ∧
    (s.reply status).sessions = s.sessions ∧ (s.reply status).nodes = s.nodes ∧
    (s.reply status).ringUp = s.ringUp ∧ (s.reply status).ringV4 = s.ringV4 ∧
    (s.reply status).uplinkV4 = s.uplinkV4 ∧ (s.reply status).announceAt = s.announceAt ∧
    (s.reply status).duplicateAt = s.duplicateAt ∧ (s.reply status).discardAt = s.discardAt ∧
    (s.reply status).discardSince = s.discardSince ∧ (s.reply status).runningMinor = s.runningMinor ∧
    (s.reply status).minorSetBy = s.minorSetBy ∧ (s.reply status).profileBusy = s.profileBusy ∧
    (s.reply status).profileTarget = s.profileTarget ∧ (s.reply status).profileFailed = s.profileFailed ∧
    (s.reply status).profileCause = s.profileCause ∧ (s.reply status).activeProfile = s.activeProfile ∧
    (s.reply status).pinSelection = s.pinSelection ∧ (s.reply status).time = s.time ∧
    (s.reply status).mem = s.mem ∧ (s.reply status).poisoned = s.poisoned ∧
    (s.reply status).tableBase = s.tableBase ∧ (s.reply status).spillBase = s.spillBase ∧
    (s.reply status).tlb = s.tlb ∧ (s.reply status).sharedTlb = s.sharedTlb ∧ (s.reply status).faults = s.faults ∧
    (s.reply status).faultWait = s.faultWait ∧ (s.reply status).lastFault = s.lastFault ∧
    (s.reply status).dma = s.dma ∧ (s.reply status).dram = s.dram ∧ (s.reply status).fetched = s.fetched ∧
    (s.reply status).inflaters = s.inflaters ∧ (s.reply status).jobs = s.jobs ∧ (s.reply status).freed = s.freed ∧
    (s.reply status).evtQ = s.evtQ ∧ (s.reply status).evtWait = s.evtWait ∧ (s.reply status).evtLost = s.evtLost ∧
    (s.reply status).mirror = s.mirror ∧ (s.reply status).mirrorNext = s.mirrorNext ∧
    (s.reply status).mirrorHeld = s.mirrorHeld ∧ (s.reply status).cal = s.cal ∧
    (s.reply status).records = s.records ∧ (s.reply status).pkg = s.pkg ∧ (s.reply status).supply = s.supply ∧
    (s.reply status).sec = s.sec ∧ (s.reply status).recovery = s.recovery ∧
    (s.reply status).resumeAvailable = s.resumeAvailable ∧ (s.reply status).resumeArm = s.resumeArm ∧
    (s.reply status).overload = s.overload ∧ (s.reply status).nv = s.nv := by
  and_intros <;> rfl

/-- Returning a credit changes nothing else. -/
@[simp] theorem State.freeCredit_frame (s : State) (q inst : Nat) :
    (s.freeCredit q inst).pending = s.pending ∧ (s.freeCredit q inst).free = s.free ∧
    (s.freeCredit q inst).tick = s.tick ∧ (s.freeCredit q inst).tickEnd = s.tickEnd ∧
    (s.freeCredit q inst).modState = s.modState ∧ (s.freeCredit q inst).prevState = s.prevState ∧
    (s.freeCredit q inst).cause = s.cause ∧ (s.freeCredit q inst).entryTick = s.entryTick ∧
    (s.freeCredit q inst).commandStatus = s.commandStatus ∧ (s.freeCredit q inst).safeCauses = s.safeCauses ∧
    (s.freeCredit q inst).safetyOk = s.safetyOk ∧ (s.freeCredit q inst).answer = s.answer ∧
    (s.freeCredit q inst).answerData = s.answerData ∧ (s.freeCredit q inst).sent = s.sent ∧
    (s.freeCredit q inst).dict = s.dict ∧ (s.freeCredit q inst).blobs = s.blobs ∧
    (s.freeCredit q inst).armDict = s.armDict ∧ (s.freeCredit q inst).layer = s.layer ∧
    (s.freeCredit q inst).engines = s.engines ∧ (s.freeCredit q inst).contexts = s.contexts ∧
    (s.freeCredit q inst).lasers = s.lasers ∧ (s.freeCredit q inst).claims = s.claims ∧
    (s.freeCredit q inst).decidedAt = s.decidedAt ∧ (s.freeCredit q inst).claimSerial = s.claimSerial ∧
    (s.freeCredit q inst).remainders = s.remainders ∧ (s.freeCredit q inst).tokens = s.tokens ∧
    (s.freeCredit q inst).spare = s.spare ∧ (s.freeCredit q inst).ledger = s.ledger ∧
    (s.freeCredit q inst).lanes = s.lanes ∧ (s.freeCredit q inst).capture = s.capture ∧
    (s.freeCredit q inst).aout = s.aout ∧ (s.freeCredit q inst).axes = s.axes ∧
    (s.freeCredit q inst).cams = s.cams ∧ (s.freeCredit q inst).planes = s.planes ∧
    (s.freeCredit q inst).comp = s.comp ∧ (s.freeCredit q inst).petals = s.petals ∧
    (s.freeCredit q inst).scanNumber = s.scanNumber ∧ (s.freeCredit q inst).sessions = s.sessions ∧
    (s.freeCredit q inst).nodes = s.nodes ∧ (s.freeCredit q inst).ringUp = s.ringUp ∧
    (s.freeCredit q inst).ringV4 = s.ringV4 ∧ (s.freeCredit q inst).uplinkV4 = s.uplinkV4 ∧
    (s.freeCredit q inst).announceAt = s.announceAt ∧ (s.freeCredit q inst).duplicateAt = s.duplicateAt ∧
    (s.freeCredit q inst).discardAt = s.discardAt ∧ (s.freeCredit q inst).discardSince = s.discardSince ∧
    (s.freeCredit q inst).runningMinor = s.runningMinor ∧ (s.freeCredit q inst).minorSetBy = s.minorSetBy ∧
    (s.freeCredit q inst).profileBusy = s.profileBusy ∧ (s.freeCredit q inst).profileTarget = s.profileTarget ∧
    (s.freeCredit q inst).profileFailed = s.profileFailed ∧ (s.freeCredit q inst).profileCause = s.profileCause ∧
    (s.freeCredit q inst).activeProfile = s.activeProfile ∧ (s.freeCredit q inst).pinSelection = s.pinSelection ∧
    (s.freeCredit q inst).time = s.time ∧ (s.freeCredit q inst).mem = s.mem ∧
    (s.freeCredit q inst).poisoned = s.poisoned ∧ (s.freeCredit q inst).tableBase = s.tableBase ∧
    (s.freeCredit q inst).spillBase = s.spillBase ∧ (s.freeCredit q inst).tlb = s.tlb ∧
    (s.freeCredit q inst).sharedTlb = s.sharedTlb ∧ (s.freeCredit q inst).faults = s.faults ∧
    (s.freeCredit q inst).faultWait = s.faultWait ∧ (s.freeCredit q inst).lastFault = s.lastFault ∧
    (s.freeCredit q inst).dma = s.dma ∧ (s.freeCredit q inst).dram = s.dram ∧
    (s.freeCredit q inst).fetched = s.fetched ∧ (s.freeCredit q inst).inflaters = s.inflaters ∧
    (s.freeCredit q inst).jobs = s.jobs ∧ (s.freeCredit q inst).evtQ = s.evtQ ∧
    (s.freeCredit q inst).evtWait = s.evtWait ∧ (s.freeCredit q inst).evtLost = s.evtLost ∧
    (s.freeCredit q inst).mirror = s.mirror ∧ (s.freeCredit q inst).mirrorNext = s.mirrorNext ∧
    (s.freeCredit q inst).mirrorHeld = s.mirrorHeld ∧ (s.freeCredit q inst).cal = s.cal ∧
    (s.freeCredit q inst).records = s.records ∧ (s.freeCredit q inst).pkg = s.pkg ∧
    (s.freeCredit q inst).supply = s.supply ∧ (s.freeCredit q inst).sec = s.sec ∧
    (s.freeCredit q inst).recovery = s.recovery ∧ (s.freeCredit q inst).resumeAvailable = s.resumeAvailable ∧
    (s.freeCredit q inst).resumeArm = s.resumeArm ∧ (s.freeCredit q inst).overload = s.overload ∧
    (s.freeCredit q inst).nv = s.nv := by
  and_intros <;> rfl

/-- Changing a context changes nothing else. -/
@[simp] theorem State.modCtx_frame (s : State) (c : Nat) (f : Context → Context) :
    (s.modCtx c f).pending = s.pending ∧ (s.modCtx c f).free = s.free ∧ (s.modCtx c f).tick = s.tick ∧
    (s.modCtx c f).tickEnd = s.tickEnd ∧ (s.modCtx c f).modState = s.modState ∧
    (s.modCtx c f).prevState = s.prevState ∧ (s.modCtx c f).cause = s.cause ∧
    (s.modCtx c f).entryTick = s.entryTick ∧ (s.modCtx c f).commandStatus = s.commandStatus ∧
    (s.modCtx c f).safeCauses = s.safeCauses ∧ (s.modCtx c f).safetyOk = s.safetyOk ∧
    (s.modCtx c f).answer = s.answer ∧ (s.modCtx c f).answerData = s.answerData ∧ (s.modCtx c f).sent = s.sent ∧
    (s.modCtx c f).dict = s.dict ∧ (s.modCtx c f).blobs = s.blobs ∧ (s.modCtx c f).armDict = s.armDict ∧
    (s.modCtx c f).layer = s.layer ∧ (s.modCtx c f).engines = s.engines ∧ (s.modCtx c f).lasers = s.lasers ∧
    (s.modCtx c f).claims = s.claims ∧ (s.modCtx c f).decidedAt = s.decidedAt ∧
    (s.modCtx c f).claimSerial = s.claimSerial ∧ (s.modCtx c f).remainders = s.remainders ∧
    (s.modCtx c f).tokens = s.tokens ∧ (s.modCtx c f).spare = s.spare ∧ (s.modCtx c f).ledger = s.ledger ∧
    (s.modCtx c f).lanes = s.lanes ∧ (s.modCtx c f).capture = s.capture ∧ (s.modCtx c f).aout = s.aout ∧
    (s.modCtx c f).axes = s.axes ∧ (s.modCtx c f).cams = s.cams ∧ (s.modCtx c f).planes = s.planes ∧
    (s.modCtx c f).comp = s.comp ∧ (s.modCtx c f).petals = s.petals ∧ (s.modCtx c f).scanNumber = s.scanNumber ∧
    (s.modCtx c f).sessions = s.sessions ∧ (s.modCtx c f).nodes = s.nodes ∧ (s.modCtx c f).ringUp = s.ringUp ∧
    (s.modCtx c f).ringV4 = s.ringV4 ∧ (s.modCtx c f).uplinkV4 = s.uplinkV4 ∧
    (s.modCtx c f).announceAt = s.announceAt ∧ (s.modCtx c f).duplicateAt = s.duplicateAt ∧
    (s.modCtx c f).discardAt = s.discardAt ∧ (s.modCtx c f).discardSince = s.discardSince ∧
    (s.modCtx c f).runningMinor = s.runningMinor ∧ (s.modCtx c f).minorSetBy = s.minorSetBy ∧
    (s.modCtx c f).profileBusy = s.profileBusy ∧ (s.modCtx c f).profileTarget = s.profileTarget ∧
    (s.modCtx c f).profileFailed = s.profileFailed ∧ (s.modCtx c f).profileCause = s.profileCause ∧
    (s.modCtx c f).activeProfile = s.activeProfile ∧ (s.modCtx c f).pinSelection = s.pinSelection ∧
    (s.modCtx c f).time = s.time ∧ (s.modCtx c f).mem = s.mem ∧ (s.modCtx c f).poisoned = s.poisoned ∧
    (s.modCtx c f).tableBase = s.tableBase ∧ (s.modCtx c f).spillBase = s.spillBase ∧ (s.modCtx c f).tlb = s.tlb ∧
    (s.modCtx c f).sharedTlb = s.sharedTlb ∧ (s.modCtx c f).faults = s.faults ∧
    (s.modCtx c f).faultWait = s.faultWait ∧ (s.modCtx c f).lastFault = s.lastFault ∧ (s.modCtx c f).dma = s.dma ∧
    (s.modCtx c f).dram = s.dram ∧ (s.modCtx c f).fetched = s.fetched ∧ (s.modCtx c f).inflaters = s.inflaters ∧
    (s.modCtx c f).jobs = s.jobs ∧ (s.modCtx c f).freed = s.freed ∧ (s.modCtx c f).evtQ = s.evtQ ∧
    (s.modCtx c f).evtWait = s.evtWait ∧ (s.modCtx c f).evtLost = s.evtLost ∧ (s.modCtx c f).mirror = s.mirror ∧
    (s.modCtx c f).mirrorNext = s.mirrorNext ∧ (s.modCtx c f).mirrorHeld = s.mirrorHeld ∧
    (s.modCtx c f).cal = s.cal ∧ (s.modCtx c f).records = s.records ∧ (s.modCtx c f).pkg = s.pkg ∧
    (s.modCtx c f).supply = s.supply ∧ (s.modCtx c f).sec = s.sec ∧ (s.modCtx c f).recovery = s.recovery ∧
    (s.modCtx c f).resumeAvailable = s.resumeAvailable ∧ (s.modCtx c f).resumeArm = s.resumeArm ∧
    (s.modCtx c f).overload = s.overload ∧ (s.modCtx c f).nv = s.nv := by
  and_intros <;> rfl

/-- Changing a claim changes nothing else. -/
@[simp] theorem State.modClaim_frame (s : State) (id : Nat) (f : Claim → Claim) :
    (s.modClaim id f).pending = s.pending ∧ (s.modClaim id f).free = s.free ∧ (s.modClaim id f).tick = s.tick ∧
    (s.modClaim id f).tickEnd = s.tickEnd ∧ (s.modClaim id f).modState = s.modState ∧
    (s.modClaim id f).prevState = s.prevState ∧ (s.modClaim id f).cause = s.cause ∧
    (s.modClaim id f).entryTick = s.entryTick ∧ (s.modClaim id f).commandStatus = s.commandStatus ∧
    (s.modClaim id f).safeCauses = s.safeCauses ∧ (s.modClaim id f).safetyOk = s.safetyOk ∧
    (s.modClaim id f).answer = s.answer ∧ (s.modClaim id f).answerData = s.answerData ∧
    (s.modClaim id f).sent = s.sent ∧ (s.modClaim id f).dict = s.dict ∧ (s.modClaim id f).blobs = s.blobs ∧
    (s.modClaim id f).armDict = s.armDict ∧ (s.modClaim id f).layer = s.layer ∧
    (s.modClaim id f).engines = s.engines ∧ (s.modClaim id f).contexts = s.contexts ∧
    (s.modClaim id f).lasers = s.lasers ∧ (s.modClaim id f).decidedAt = s.decidedAt ∧
    (s.modClaim id f).claimSerial = s.claimSerial ∧ (s.modClaim id f).remainders = s.remainders ∧
    (s.modClaim id f).tokens = s.tokens ∧ (s.modClaim id f).spare = s.spare ∧ (s.modClaim id f).ledger = s.ledger ∧
    (s.modClaim id f).lanes = s.lanes ∧ (s.modClaim id f).capture = s.capture ∧ (s.modClaim id f).aout = s.aout ∧
    (s.modClaim id f).axes = s.axes ∧ (s.modClaim id f).cams = s.cams ∧ (s.modClaim id f).planes = s.planes ∧
    (s.modClaim id f).comp = s.comp ∧ (s.modClaim id f).petals = s.petals ∧
    (s.modClaim id f).scanNumber = s.scanNumber ∧ (s.modClaim id f).sessions = s.sessions ∧
    (s.modClaim id f).nodes = s.nodes ∧ (s.modClaim id f).ringUp = s.ringUp ∧ (s.modClaim id f).ringV4 = s.ringV4 ∧
    (s.modClaim id f).uplinkV4 = s.uplinkV4 ∧ (s.modClaim id f).announceAt = s.announceAt ∧
    (s.modClaim id f).duplicateAt = s.duplicateAt ∧ (s.modClaim id f).discardAt = s.discardAt ∧
    (s.modClaim id f).discardSince = s.discardSince ∧ (s.modClaim id f).runningMinor = s.runningMinor ∧
    (s.modClaim id f).minorSetBy = s.minorSetBy ∧ (s.modClaim id f).profileBusy = s.profileBusy ∧
    (s.modClaim id f).profileTarget = s.profileTarget ∧ (s.modClaim id f).profileFailed = s.profileFailed ∧
    (s.modClaim id f).profileCause = s.profileCause ∧ (s.modClaim id f).activeProfile = s.activeProfile ∧
    (s.modClaim id f).pinSelection = s.pinSelection ∧ (s.modClaim id f).time = s.time ∧
    (s.modClaim id f).mem = s.mem ∧ (s.modClaim id f).poisoned = s.poisoned ∧
    (s.modClaim id f).tableBase = s.tableBase ∧ (s.modClaim id f).spillBase = s.spillBase ∧
    (s.modClaim id f).tlb = s.tlb ∧ (s.modClaim id f).sharedTlb = s.sharedTlb ∧
    (s.modClaim id f).faults = s.faults ∧ (s.modClaim id f).faultWait = s.faultWait ∧
    (s.modClaim id f).lastFault = s.lastFault ∧ (s.modClaim id f).dma = s.dma ∧ (s.modClaim id f).dram = s.dram ∧
    (s.modClaim id f).fetched = s.fetched ∧ (s.modClaim id f).inflaters = s.inflaters ∧
    (s.modClaim id f).jobs = s.jobs ∧ (s.modClaim id f).freed = s.freed ∧ (s.modClaim id f).evtQ = s.evtQ ∧
    (s.modClaim id f).evtWait = s.evtWait ∧ (s.modClaim id f).evtLost = s.evtLost ∧
    (s.modClaim id f).mirror = s.mirror ∧ (s.modClaim id f).mirrorNext = s.mirrorNext ∧
    (s.modClaim id f).mirrorHeld = s.mirrorHeld ∧ (s.modClaim id f).cal = s.cal ∧
    (s.modClaim id f).records = s.records ∧ (s.modClaim id f).pkg = s.pkg ∧ (s.modClaim id f).supply = s.supply ∧
    (s.modClaim id f).sec = s.sec ∧ (s.modClaim id f).recovery = s.recovery ∧
    (s.modClaim id f).resumeAvailable = s.resumeAvailable ∧ (s.modClaim id f).resumeArm = s.resumeArm ∧
    (s.modClaim id f).overload = s.overload ∧ (s.modClaim id f).nv = s.nv := by
  and_intros <;> rfl

/-- Changing the last record of a session changes nothing else. -/
@[simp] theorem State.touch_frame (s : State) (q : Sess) :
    (s.touch q).pending = s.pending ∧ (s.touch q).free = s.free ∧ (s.touch q).tick = s.tick ∧
    (s.touch q).tickEnd = s.tickEnd ∧ (s.touch q).modState = s.modState ∧ (s.touch q).prevState = s.prevState ∧
    (s.touch q).cause = s.cause ∧ (s.touch q).entryTick = s.entryTick ∧
    (s.touch q).commandStatus = s.commandStatus ∧ (s.touch q).safeCauses = s.safeCauses ∧
    (s.touch q).safetyOk = s.safetyOk ∧ (s.touch q).answer = s.answer ∧ (s.touch q).answerData = s.answerData ∧
    (s.touch q).sent = s.sent ∧ (s.touch q).dict = s.dict ∧ (s.touch q).blobs = s.blobs ∧
    (s.touch q).armDict = s.armDict ∧ (s.touch q).layer = s.layer ∧ (s.touch q).engines = s.engines ∧
    (s.touch q).contexts = s.contexts ∧ (s.touch q).lasers = s.lasers ∧ (s.touch q).claims = s.claims ∧
    (s.touch q).decidedAt = s.decidedAt ∧ (s.touch q).claimSerial = s.claimSerial ∧
    (s.touch q).remainders = s.remainders ∧ (s.touch q).tokens = s.tokens ∧ (s.touch q).spare = s.spare ∧
    (s.touch q).ledger = s.ledger ∧ (s.touch q).lanes = s.lanes ∧ (s.touch q).capture = s.capture ∧
    (s.touch q).aout = s.aout ∧ (s.touch q).axes = s.axes ∧ (s.touch q).cams = s.cams ∧
    (s.touch q).planes = s.planes ∧ (s.touch q).comp = s.comp ∧ (s.touch q).petals = s.petals ∧
    (s.touch q).scanNumber = s.scanNumber ∧ (s.touch q).nodes = s.nodes ∧ (s.touch q).ringUp = s.ringUp ∧
    (s.touch q).ringV4 = s.ringV4 ∧ (s.touch q).uplinkV4 = s.uplinkV4 ∧ (s.touch q).announceAt = s.announceAt ∧
    (s.touch q).duplicateAt = s.duplicateAt ∧ (s.touch q).discardAt = s.discardAt ∧
    (s.touch q).discardSince = s.discardSince ∧ (s.touch q).runningMinor = s.runningMinor ∧
    (s.touch q).minorSetBy = s.minorSetBy ∧ (s.touch q).profileBusy = s.profileBusy ∧
    (s.touch q).profileTarget = s.profileTarget ∧ (s.touch q).profileFailed = s.profileFailed ∧
    (s.touch q).profileCause = s.profileCause ∧ (s.touch q).activeProfile = s.activeProfile ∧
    (s.touch q).pinSelection = s.pinSelection ∧ (s.touch q).time = s.time ∧ (s.touch q).mem = s.mem ∧
    (s.touch q).poisoned = s.poisoned ∧ (s.touch q).tableBase = s.tableBase ∧ (s.touch q).spillBase = s.spillBase ∧
    (s.touch q).tlb = s.tlb ∧ (s.touch q).sharedTlb = s.sharedTlb ∧ (s.touch q).faults = s.faults ∧
    (s.touch q).faultWait = s.faultWait ∧ (s.touch q).lastFault = s.lastFault ∧ (s.touch q).dma = s.dma ∧
    (s.touch q).dram = s.dram ∧ (s.touch q).fetched = s.fetched ∧ (s.touch q).inflaters = s.inflaters ∧
    (s.touch q).jobs = s.jobs ∧ (s.touch q).freed = s.freed ∧ (s.touch q).evtQ = s.evtQ ∧
    (s.touch q).evtWait = s.evtWait ∧ (s.touch q).evtLost = s.evtLost ∧ (s.touch q).mirror = s.mirror ∧
    (s.touch q).mirrorNext = s.mirrorNext ∧ (s.touch q).mirrorHeld = s.mirrorHeld ∧ (s.touch q).cal = s.cal ∧
    (s.touch q).records = s.records ∧ (s.touch q).pkg = s.pkg ∧ (s.touch q).supply = s.supply ∧
    (s.touch q).sec = s.sec ∧ (s.touch q).recovery = s.recovery ∧ (s.touch q).resumeAvailable = s.resumeAvailable ∧
    (s.touch q).resumeArm = s.resumeArm ∧ (s.touch q).overload = s.overload ∧ (s.touch q).nv = s.nv := by
  and_intros <;> rfl

/-- Changing an engine state changes nothing else. -/
@[simp] theorem State.engineTo_frame (s : State) (e : EngineId) (st : EngState) (cause : Nat) :
    (s.engineTo e st cause).pending = s.pending ∧ (s.engineTo e st cause).free = s.free ∧
    (s.engineTo e st cause).tick = s.tick ∧ (s.engineTo e st cause).tickEnd = s.tickEnd ∧
    (s.engineTo e st cause).modState = s.modState ∧ (s.engineTo e st cause).prevState = s.prevState ∧
    (s.engineTo e st cause).cause = s.cause ∧ (s.engineTo e st cause).entryTick = s.entryTick ∧
    (s.engineTo e st cause).commandStatus = s.commandStatus ∧ (s.engineTo e st cause).safeCauses = s.safeCauses ∧
    (s.engineTo e st cause).safetyOk = s.safetyOk ∧ (s.engineTo e st cause).answer = s.answer ∧
    (s.engineTo e st cause).answerData = s.answerData ∧ (s.engineTo e st cause).sent = s.sent ∧
    (s.engineTo e st cause).dict = s.dict ∧ (s.engineTo e st cause).blobs = s.blobs ∧
    (s.engineTo e st cause).armDict = s.armDict ∧ (s.engineTo e st cause).layer = s.layer ∧
    (s.engineTo e st cause).contexts = s.contexts ∧ (s.engineTo e st cause).lasers = s.lasers ∧
    (s.engineTo e st cause).claims = s.claims ∧ (s.engineTo e st cause).decidedAt = s.decidedAt ∧
    (s.engineTo e st cause).claimSerial = s.claimSerial ∧ (s.engineTo e st cause).remainders = s.remainders ∧
    (s.engineTo e st cause).tokens = s.tokens ∧ (s.engineTo e st cause).spare = s.spare ∧
    (s.engineTo e st cause).ledger = s.ledger ∧ (s.engineTo e st cause).lanes = s.lanes ∧
    (s.engineTo e st cause).capture = s.capture ∧ (s.engineTo e st cause).aout = s.aout ∧
    (s.engineTo e st cause).axes = s.axes ∧ (s.engineTo e st cause).cams = s.cams ∧
    (s.engineTo e st cause).planes = s.planes ∧ (s.engineTo e st cause).comp = s.comp ∧
    (s.engineTo e st cause).petals = s.petals ∧ (s.engineTo e st cause).scanNumber = s.scanNumber ∧
    (s.engineTo e st cause).sessions = s.sessions ∧ (s.engineTo e st cause).nodes = s.nodes ∧
    (s.engineTo e st cause).ringUp = s.ringUp ∧ (s.engineTo e st cause).ringV4 = s.ringV4 ∧
    (s.engineTo e st cause).uplinkV4 = s.uplinkV4 ∧ (s.engineTo e st cause).announceAt = s.announceAt ∧
    (s.engineTo e st cause).duplicateAt = s.duplicateAt ∧ (s.engineTo e st cause).discardAt = s.discardAt ∧
    (s.engineTo e st cause).discardSince = s.discardSince ∧ (s.engineTo e st cause).runningMinor = s.runningMinor ∧
    (s.engineTo e st cause).minorSetBy = s.minorSetBy ∧ (s.engineTo e st cause).profileBusy = s.profileBusy ∧
    (s.engineTo e st cause).profileTarget = s.profileTarget ∧
    (s.engineTo e st cause).profileFailed = s.profileFailed ∧
    (s.engineTo e st cause).profileCause = s.profileCause ∧
    (s.engineTo e st cause).activeProfile = s.activeProfile ∧
    (s.engineTo e st cause).pinSelection = s.pinSelection ∧ (s.engineTo e st cause).time = s.time ∧
    (s.engineTo e st cause).mem = s.mem ∧ (s.engineTo e st cause).poisoned = s.poisoned ∧
    (s.engineTo e st cause).tableBase = s.tableBase ∧ (s.engineTo e st cause).spillBase = s.spillBase ∧
    (s.engineTo e st cause).tlb = s.tlb ∧ (s.engineTo e st cause).sharedTlb = s.sharedTlb ∧
    (s.engineTo e st cause).faults = s.faults ∧ (s.engineTo e st cause).faultWait = s.faultWait ∧
    (s.engineTo e st cause).lastFault = s.lastFault ∧ (s.engineTo e st cause).dma = s.dma ∧
    (s.engineTo e st cause).dram = s.dram ∧ (s.engineTo e st cause).fetched = s.fetched ∧
    (s.engineTo e st cause).inflaters = s.inflaters ∧ (s.engineTo e st cause).jobs = s.jobs ∧
    (s.engineTo e st cause).freed = s.freed ∧ (s.engineTo e st cause).evtQ = s.evtQ ∧
    (s.engineTo e st cause).evtWait = s.evtWait ∧ (s.engineTo e st cause).evtLost = s.evtLost ∧
    (s.engineTo e st cause).mirror = s.mirror ∧ (s.engineTo e st cause).mirrorNext = s.mirrorNext ∧
    (s.engineTo e st cause).mirrorHeld = s.mirrorHeld ∧ (s.engineTo e st cause).cal = s.cal ∧
    (s.engineTo e st cause).records = s.records ∧ (s.engineTo e st cause).pkg = s.pkg ∧
    (s.engineTo e st cause).supply = s.supply ∧ (s.engineTo e st cause).sec = s.sec ∧
    (s.engineTo e st cause).recovery = s.recovery ∧ (s.engineTo e st cause).resumeAvailable = s.resumeAvailable ∧
    (s.engineTo e st cause).resumeArm = s.resumeArm ∧ (s.engineTo e st cause).overload = s.overload ∧
    (s.engineTo e st cause).nv = s.nv := by
  and_intros <;> rfl

/-- Changing an overload bit changes nothing else. -/
@[simp] theorem State.overloadClear_frame (s : State) (o : Nat) :
    (s.overloadClear o).pending = s.pending ∧ (s.overloadClear o).free = s.free ∧
    (s.overloadClear o).tick = s.tick ∧ (s.overloadClear o).tickEnd = s.tickEnd ∧
    (s.overloadClear o).modState = s.modState ∧ (s.overloadClear o).prevState = s.prevState ∧
    (s.overloadClear o).cause = s.cause ∧ (s.overloadClear o).entryTick = s.entryTick ∧
    (s.overloadClear o).commandStatus = s.commandStatus ∧ (s.overloadClear o).safeCauses = s.safeCauses ∧
    (s.overloadClear o).safetyOk = s.safetyOk ∧ (s.overloadClear o).answer = s.answer ∧
    (s.overloadClear o).answerData = s.answerData ∧ (s.overloadClear o).sent = s.sent ∧
    (s.overloadClear o).dict = s.dict ∧ (s.overloadClear o).blobs = s.blobs ∧
    (s.overloadClear o).armDict = s.armDict ∧ (s.overloadClear o).layer = s.layer ∧
    (s.overloadClear o).engines = s.engines ∧ (s.overloadClear o).contexts = s.contexts ∧
    (s.overloadClear o).lasers = s.lasers ∧ (s.overloadClear o).claims = s.claims ∧
    (s.overloadClear o).decidedAt = s.decidedAt ∧ (s.overloadClear o).claimSerial = s.claimSerial ∧
    (s.overloadClear o).remainders = s.remainders ∧ (s.overloadClear o).tokens = s.tokens ∧
    (s.overloadClear o).spare = s.spare ∧ (s.overloadClear o).ledger = s.ledger ∧
    (s.overloadClear o).lanes = s.lanes ∧ (s.overloadClear o).capture = s.capture ∧
    (s.overloadClear o).aout = s.aout ∧ (s.overloadClear o).axes = s.axes ∧ (s.overloadClear o).cams = s.cams ∧
    (s.overloadClear o).planes = s.planes ∧ (s.overloadClear o).comp = s.comp ∧
    (s.overloadClear o).petals = s.petals ∧ (s.overloadClear o).scanNumber = s.scanNumber ∧
    (s.overloadClear o).sessions = s.sessions ∧ (s.overloadClear o).nodes = s.nodes ∧
    (s.overloadClear o).ringUp = s.ringUp ∧ (s.overloadClear o).ringV4 = s.ringV4 ∧
    (s.overloadClear o).uplinkV4 = s.uplinkV4 ∧ (s.overloadClear o).announceAt = s.announceAt ∧
    (s.overloadClear o).duplicateAt = s.duplicateAt ∧ (s.overloadClear o).discardAt = s.discardAt ∧
    (s.overloadClear o).discardSince = s.discardSince ∧ (s.overloadClear o).runningMinor = s.runningMinor ∧
    (s.overloadClear o).minorSetBy = s.minorSetBy ∧ (s.overloadClear o).profileBusy = s.profileBusy ∧
    (s.overloadClear o).profileTarget = s.profileTarget ∧ (s.overloadClear o).profileFailed = s.profileFailed ∧
    (s.overloadClear o).profileCause = s.profileCause ∧ (s.overloadClear o).activeProfile = s.activeProfile ∧
    (s.overloadClear o).pinSelection = s.pinSelection ∧ (s.overloadClear o).time = s.time ∧
    (s.overloadClear o).mem = s.mem ∧ (s.overloadClear o).poisoned = s.poisoned ∧
    (s.overloadClear o).tableBase = s.tableBase ∧ (s.overloadClear o).spillBase = s.spillBase ∧
    (s.overloadClear o).tlb = s.tlb ∧ (s.overloadClear o).sharedTlb = s.sharedTlb ∧
    (s.overloadClear o).faults = s.faults ∧ (s.overloadClear o).faultWait = s.faultWait ∧
    (s.overloadClear o).lastFault = s.lastFault ∧ (s.overloadClear o).dma = s.dma ∧
    (s.overloadClear o).dram = s.dram ∧ (s.overloadClear o).fetched = s.fetched ∧
    (s.overloadClear o).inflaters = s.inflaters ∧ (s.overloadClear o).jobs = s.jobs ∧
    (s.overloadClear o).freed = s.freed ∧ (s.overloadClear o).evtQ = s.evtQ ∧
    (s.overloadClear o).evtWait = s.evtWait ∧ (s.overloadClear o).evtLost = s.evtLost ∧
    (s.overloadClear o).mirror = s.mirror ∧ (s.overloadClear o).mirrorNext = s.mirrorNext ∧
    (s.overloadClear o).mirrorHeld = s.mirrorHeld ∧ (s.overloadClear o).cal = s.cal ∧
    (s.overloadClear o).records = s.records ∧ (s.overloadClear o).pkg = s.pkg ∧
    (s.overloadClear o).supply = s.supply ∧ (s.overloadClear o).sec = s.sec ∧
    (s.overloadClear o).recovery = s.recovery ∧ (s.overloadClear o).resumeAvailable = s.resumeAvailable ∧
    (s.overloadClear o).resumeArm = s.resumeArm ∧ (s.overloadClear o).nv = s.nv := by
  and_intros <;> rfl

/-- Taking a free value changes nothing else. -/
@[simp] theorem State.takeFree_frame (s : State) :
    (s.takeFree.2).pending = s.pending ∧ (s.takeFree.2).tick = s.tick ∧ (s.takeFree.2).tickEnd = s.tickEnd ∧
    (s.takeFree.2).modState = s.modState ∧ (s.takeFree.2).prevState = s.prevState ∧
    (s.takeFree.2).cause = s.cause ∧ (s.takeFree.2).entryTick = s.entryTick ∧
    (s.takeFree.2).commandStatus = s.commandStatus ∧ (s.takeFree.2).safeCauses = s.safeCauses ∧
    (s.takeFree.2).safetyOk = s.safetyOk ∧ (s.takeFree.2).answer = s.answer ∧
    (s.takeFree.2).answerData = s.answerData ∧ (s.takeFree.2).sent = s.sent ∧ (s.takeFree.2).dict = s.dict ∧
    (s.takeFree.2).blobs = s.blobs ∧ (s.takeFree.2).armDict = s.armDict ∧ (s.takeFree.2).layer = s.layer ∧
    (s.takeFree.2).engines = s.engines ∧ (s.takeFree.2).contexts = s.contexts ∧ (s.takeFree.2).lasers = s.lasers ∧
    (s.takeFree.2).claims = s.claims ∧ (s.takeFree.2).decidedAt = s.decidedAt ∧
    (s.takeFree.2).claimSerial = s.claimSerial ∧ (s.takeFree.2).remainders = s.remainders ∧
    (s.takeFree.2).tokens = s.tokens ∧ (s.takeFree.2).spare = s.spare ∧ (s.takeFree.2).ledger = s.ledger ∧
    (s.takeFree.2).lanes = s.lanes ∧ (s.takeFree.2).capture = s.capture ∧ (s.takeFree.2).aout = s.aout ∧
    (s.takeFree.2).axes = s.axes ∧ (s.takeFree.2).cams = s.cams ∧ (s.takeFree.2).planes = s.planes ∧
    (s.takeFree.2).comp = s.comp ∧ (s.takeFree.2).petals = s.petals ∧ (s.takeFree.2).scanNumber = s.scanNumber ∧
    (s.takeFree.2).sessions = s.sessions ∧ (s.takeFree.2).nodes = s.nodes ∧ (s.takeFree.2).ringUp = s.ringUp ∧
    (s.takeFree.2).ringV4 = s.ringV4 ∧ (s.takeFree.2).uplinkV4 = s.uplinkV4 ∧
    (s.takeFree.2).announceAt = s.announceAt ∧ (s.takeFree.2).duplicateAt = s.duplicateAt ∧
    (s.takeFree.2).discardAt = s.discardAt ∧ (s.takeFree.2).discardSince = s.discardSince ∧
    (s.takeFree.2).runningMinor = s.runningMinor ∧ (s.takeFree.2).minorSetBy = s.minorSetBy ∧
    (s.takeFree.2).profileBusy = s.profileBusy ∧ (s.takeFree.2).profileTarget = s.profileTarget ∧
    (s.takeFree.2).profileFailed = s.profileFailed ∧ (s.takeFree.2).profileCause = s.profileCause ∧
    (s.takeFree.2).activeProfile = s.activeProfile ∧ (s.takeFree.2).pinSelection = s.pinSelection ∧
    (s.takeFree.2).time = s.time ∧ (s.takeFree.2).mem = s.mem ∧ (s.takeFree.2).poisoned = s.poisoned ∧
    (s.takeFree.2).tableBase = s.tableBase ∧ (s.takeFree.2).spillBase = s.spillBase ∧ (s.takeFree.2).tlb = s.tlb ∧
    (s.takeFree.2).sharedTlb = s.sharedTlb ∧ (s.takeFree.2).faults = s.faults ∧
    (s.takeFree.2).faultWait = s.faultWait ∧ (s.takeFree.2).lastFault = s.lastFault ∧ (s.takeFree.2).dma = s.dma ∧
    (s.takeFree.2).dram = s.dram ∧ (s.takeFree.2).fetched = s.fetched ∧ (s.takeFree.2).inflaters = s.inflaters ∧
    (s.takeFree.2).jobs = s.jobs ∧ (s.takeFree.2).freed = s.freed ∧ (s.takeFree.2).evtQ = s.evtQ ∧
    (s.takeFree.2).evtWait = s.evtWait ∧ (s.takeFree.2).evtLost = s.evtLost ∧ (s.takeFree.2).mirror = s.mirror ∧
    (s.takeFree.2).mirrorNext = s.mirrorNext ∧ (s.takeFree.2).mirrorHeld = s.mirrorHeld ∧
    (s.takeFree.2).cal = s.cal ∧ (s.takeFree.2).records = s.records ∧ (s.takeFree.2).pkg = s.pkg ∧
    (s.takeFree.2).supply = s.supply ∧ (s.takeFree.2).sec = s.sec ∧ (s.takeFree.2).recovery = s.recovery ∧
    (s.takeFree.2).resumeAvailable = s.resumeAvailable ∧ (s.takeFree.2).resumeArm = s.resumeArm ∧
    (s.takeFree.2).overload = s.overload ∧ (s.takeFree.2).nv = s.nv := by
  and_intros <;> rfl

/-- Counting changes the entry, and the free values where it passes its highest value. -/
@[simp] theorem State.count_frame (s : State) (index sub n : Nat) :
    (s.count index sub n).pending = s.pending ∧ (s.count index sub n).tick = s.tick ∧
    (s.count index sub n).tickEnd = s.tickEnd ∧ (s.count index sub n).modState = s.modState ∧
    (s.count index sub n).prevState = s.prevState ∧ (s.count index sub n).cause = s.cause ∧
    (s.count index sub n).entryTick = s.entryTick ∧ (s.count index sub n).commandStatus = s.commandStatus ∧
    (s.count index sub n).safeCauses = s.safeCauses ∧ (s.count index sub n).safetyOk = s.safetyOk ∧
    (s.count index sub n).answer = s.answer ∧ (s.count index sub n).answerData = s.answerData ∧
    (s.count index sub n).sent = s.sent ∧ (s.count index sub n).blobs = s.blobs ∧
    (s.count index sub n).armDict = s.armDict ∧ (s.count index sub n).layer = s.layer ∧
    (s.count index sub n).engines = s.engines ∧ (s.count index sub n).contexts = s.contexts ∧
    (s.count index sub n).lasers = s.lasers ∧ (s.count index sub n).claims = s.claims ∧
    (s.count index sub n).decidedAt = s.decidedAt ∧ (s.count index sub n).claimSerial = s.claimSerial ∧
    (s.count index sub n).remainders = s.remainders ∧ (s.count index sub n).tokens = s.tokens ∧
    (s.count index sub n).spare = s.spare ∧ (s.count index sub n).ledger = s.ledger ∧
    (s.count index sub n).lanes = s.lanes ∧ (s.count index sub n).capture = s.capture ∧
    (s.count index sub n).aout = s.aout ∧ (s.count index sub n).axes = s.axes ∧
    (s.count index sub n).cams = s.cams ∧ (s.count index sub n).planes = s.planes ∧
    (s.count index sub n).comp = s.comp ∧ (s.count index sub n).petals = s.petals ∧
    (s.count index sub n).scanNumber = s.scanNumber ∧ (s.count index sub n).sessions = s.sessions ∧
    (s.count index sub n).nodes = s.nodes ∧ (s.count index sub n).ringUp = s.ringUp ∧
    (s.count index sub n).ringV4 = s.ringV4 ∧ (s.count index sub n).uplinkV4 = s.uplinkV4 ∧
    (s.count index sub n).announceAt = s.announceAt ∧ (s.count index sub n).duplicateAt = s.duplicateAt ∧
    (s.count index sub n).discardAt = s.discardAt ∧ (s.count index sub n).discardSince = s.discardSince ∧
    (s.count index sub n).runningMinor = s.runningMinor ∧ (s.count index sub n).minorSetBy = s.minorSetBy ∧
    (s.count index sub n).profileBusy = s.profileBusy ∧ (s.count index sub n).profileTarget = s.profileTarget ∧
    (s.count index sub n).profileFailed = s.profileFailed ∧ (s.count index sub n).profileCause = s.profileCause ∧
    (s.count index sub n).activeProfile = s.activeProfile ∧ (s.count index sub n).pinSelection = s.pinSelection ∧
    (s.count index sub n).time = s.time ∧ (s.count index sub n).mem = s.mem ∧
    (s.count index sub n).poisoned = s.poisoned ∧ (s.count index sub n).tableBase = s.tableBase ∧
    (s.count index sub n).spillBase = s.spillBase ∧ (s.count index sub n).tlb = s.tlb ∧
    (s.count index sub n).sharedTlb = s.sharedTlb ∧ (s.count index sub n).faults = s.faults ∧
    (s.count index sub n).faultWait = s.faultWait ∧ (s.count index sub n).lastFault = s.lastFault ∧
    (s.count index sub n).dma = s.dma ∧ (s.count index sub n).dram = s.dram ∧
    (s.count index sub n).fetched = s.fetched ∧ (s.count index sub n).inflaters = s.inflaters ∧
    (s.count index sub n).jobs = s.jobs ∧ (s.count index sub n).freed = s.freed ∧
    (s.count index sub n).evtQ = s.evtQ ∧ (s.count index sub n).evtWait = s.evtWait ∧
    (s.count index sub n).evtLost = s.evtLost ∧ (s.count index sub n).mirror = s.mirror ∧
    (s.count index sub n).mirrorNext = s.mirrorNext ∧ (s.count index sub n).mirrorHeld = s.mirrorHeld ∧
    (s.count index sub n).cal = s.cal ∧ (s.count index sub n).records = s.records ∧
    (s.count index sub n).pkg = s.pkg ∧ (s.count index sub n).supply = s.supply ∧
    (s.count index sub n).sec = s.sec ∧ (s.count index sub n).recovery = s.recovery ∧
    (s.count index sub n).resumeAvailable = s.resumeAvailable ∧ (s.count index sub n).resumeArm = s.resumeArm ∧
    (s.count index sub n).overload = s.overload ∧ (s.count index sub n).nv = s.nv := by
  unfold State.count; dsimp only; split <;> split <;> (and_intros <;> rfl)

/-- Counting one. -/
@[simp] theorem State.bump_frame (s : State) (index sub : Nat) :
    (s.bump index sub).pending = s.pending ∧ (s.bump index sub).tick = s.tick ∧
    (s.bump index sub).tickEnd = s.tickEnd ∧ (s.bump index sub).modState = s.modState ∧
    (s.bump index sub).prevState = s.prevState ∧ (s.bump index sub).cause = s.cause ∧
    (s.bump index sub).entryTick = s.entryTick ∧ (s.bump index sub).commandStatus = s.commandStatus ∧
    (s.bump index sub).safeCauses = s.safeCauses ∧ (s.bump index sub).safetyOk = s.safetyOk ∧
    (s.bump index sub).answer = s.answer ∧ (s.bump index sub).answerData = s.answerData ∧
    (s.bump index sub).sent = s.sent ∧ (s.bump index sub).blobs = s.blobs ∧
    (s.bump index sub).armDict = s.armDict ∧ (s.bump index sub).layer = s.layer ∧
    (s.bump index sub).engines = s.engines ∧ (s.bump index sub).contexts = s.contexts ∧
    (s.bump index sub).lasers = s.lasers ∧ (s.bump index sub).claims = s.claims ∧
    (s.bump index sub).decidedAt = s.decidedAt ∧ (s.bump index sub).claimSerial = s.claimSerial ∧
    (s.bump index sub).remainders = s.remainders ∧ (s.bump index sub).tokens = s.tokens ∧
    (s.bump index sub).spare = s.spare ∧ (s.bump index sub).ledger = s.ledger ∧
    (s.bump index sub).lanes = s.lanes ∧ (s.bump index sub).capture = s.capture ∧
    (s.bump index sub).aout = s.aout ∧ (s.bump index sub).axes = s.axes ∧ (s.bump index sub).cams = s.cams ∧
    (s.bump index sub).planes = s.planes ∧ (s.bump index sub).comp = s.comp ∧
    (s.bump index sub).petals = s.petals ∧ (s.bump index sub).scanNumber = s.scanNumber ∧
    (s.bump index sub).sessions = s.sessions ∧ (s.bump index sub).nodes = s.nodes ∧
    (s.bump index sub).ringUp = s.ringUp ∧ (s.bump index sub).ringV4 = s.ringV4 ∧
    (s.bump index sub).uplinkV4 = s.uplinkV4 ∧ (s.bump index sub).announceAt = s.announceAt ∧
    (s.bump index sub).duplicateAt = s.duplicateAt ∧ (s.bump index sub).discardAt = s.discardAt ∧
    (s.bump index sub).discardSince = s.discardSince ∧ (s.bump index sub).runningMinor = s.runningMinor ∧
    (s.bump index sub).minorSetBy = s.minorSetBy ∧ (s.bump index sub).profileBusy = s.profileBusy ∧
    (s.bump index sub).profileTarget = s.profileTarget ∧ (s.bump index sub).profileFailed = s.profileFailed ∧
    (s.bump index sub).profileCause = s.profileCause ∧ (s.bump index sub).activeProfile = s.activeProfile ∧
    (s.bump index sub).pinSelection = s.pinSelection ∧ (s.bump index sub).time = s.time ∧
    (s.bump index sub).mem = s.mem ∧ (s.bump index sub).poisoned = s.poisoned ∧
    (s.bump index sub).tableBase = s.tableBase ∧ (s.bump index sub).spillBase = s.spillBase ∧
    (s.bump index sub).tlb = s.tlb ∧ (s.bump index sub).sharedTlb = s.sharedTlb ∧
    (s.bump index sub).faults = s.faults ∧ (s.bump index sub).faultWait = s.faultWait ∧
    (s.bump index sub).lastFault = s.lastFault ∧ (s.bump index sub).dma = s.dma ∧
    (s.bump index sub).dram = s.dram ∧ (s.bump index sub).fetched = s.fetched ∧
    (s.bump index sub).inflaters = s.inflaters ∧ (s.bump index sub).jobs = s.jobs ∧
    (s.bump index sub).freed = s.freed ∧ (s.bump index sub).evtQ = s.evtQ ∧
    (s.bump index sub).evtWait = s.evtWait ∧ (s.bump index sub).evtLost = s.evtLost ∧
    (s.bump index sub).mirror = s.mirror ∧ (s.bump index sub).mirrorNext = s.mirrorNext ∧
    (s.bump index sub).mirrorHeld = s.mirrorHeld ∧ (s.bump index sub).cal = s.cal ∧
    (s.bump index sub).records = s.records ∧ (s.bump index sub).pkg = s.pkg ∧
    (s.bump index sub).supply = s.supply ∧ (s.bump index sub).sec = s.sec ∧
    (s.bump index sub).recovery = s.recovery ∧ (s.bump index sub).resumeAvailable = s.resumeAvailable ∧
    (s.bump index sub).resumeArm = s.resumeArm ∧ (s.bump index sub).overload = s.overload ∧
    (s.bump index sub).nv = s.nv := by
  unfold State.bump; simp only [State.count_frame, and_self]

/-- Counting a credit wait. -/
@[simp] theorem State.waited_frame (s : State) (queue : Nat) :
    (s.waited queue).pending = s.pending ∧ (s.waited queue).tick = s.tick ∧ (s.waited queue).tickEnd = s.tickEnd ∧
    (s.waited queue).modState = s.modState ∧ (s.waited queue).prevState = s.prevState ∧
    (s.waited queue).cause = s.cause ∧ (s.waited queue).entryTick = s.entryTick ∧
    (s.waited queue).commandStatus = s.commandStatus ∧ (s.waited queue).safeCauses = s.safeCauses ∧
    (s.waited queue).safetyOk = s.safetyOk ∧ (s.waited queue).answer = s.answer ∧
    (s.waited queue).answerData = s.answerData ∧ (s.waited queue).sent = s.sent ∧
    (s.waited queue).blobs = s.blobs ∧ (s.waited queue).armDict = s.armDict ∧ (s.waited queue).layer = s.layer ∧
    (s.waited queue).engines = s.engines ∧ (s.waited queue).contexts = s.contexts ∧
    (s.waited queue).lasers = s.lasers ∧ (s.waited queue).claims = s.claims ∧
    (s.waited queue).decidedAt = s.decidedAt ∧ (s.waited queue).claimSerial = s.claimSerial ∧
    (s.waited queue).remainders = s.remainders ∧ (s.waited queue).tokens = s.tokens ∧
    (s.waited queue).spare = s.spare ∧ (s.waited queue).ledger = s.ledger ∧ (s.waited queue).lanes = s.lanes ∧
    (s.waited queue).capture = s.capture ∧ (s.waited queue).aout = s.aout ∧ (s.waited queue).axes = s.axes ∧
    (s.waited queue).cams = s.cams ∧ (s.waited queue).planes = s.planes ∧ (s.waited queue).comp = s.comp ∧
    (s.waited queue).petals = s.petals ∧ (s.waited queue).scanNumber = s.scanNumber ∧
    (s.waited queue).sessions = s.sessions ∧ (s.waited queue).nodes = s.nodes ∧
    (s.waited queue).ringUp = s.ringUp ∧ (s.waited queue).ringV4 = s.ringV4 ∧
    (s.waited queue).uplinkV4 = s.uplinkV4 ∧ (s.waited queue).announceAt = s.announceAt ∧
    (s.waited queue).duplicateAt = s.duplicateAt ∧ (s.waited queue).discardAt = s.discardAt ∧
    (s.waited queue).discardSince = s.discardSince ∧ (s.waited queue).runningMinor = s.runningMinor ∧
    (s.waited queue).minorSetBy = s.minorSetBy ∧ (s.waited queue).profileBusy = s.profileBusy ∧
    (s.waited queue).profileTarget = s.profileTarget ∧ (s.waited queue).profileFailed = s.profileFailed ∧
    (s.waited queue).profileCause = s.profileCause ∧ (s.waited queue).activeProfile = s.activeProfile ∧
    (s.waited queue).pinSelection = s.pinSelection ∧ (s.waited queue).time = s.time ∧
    (s.waited queue).mem = s.mem ∧ (s.waited queue).poisoned = s.poisoned ∧
    (s.waited queue).tableBase = s.tableBase ∧ (s.waited queue).spillBase = s.spillBase ∧
    (s.waited queue).tlb = s.tlb ∧ (s.waited queue).sharedTlb = s.sharedTlb ∧ (s.waited queue).faults = s.faults ∧
    (s.waited queue).faultWait = s.faultWait ∧ (s.waited queue).lastFault = s.lastFault ∧
    (s.waited queue).dma = s.dma ∧ (s.waited queue).dram = s.dram ∧ (s.waited queue).fetched = s.fetched ∧
    (s.waited queue).inflaters = s.inflaters ∧ (s.waited queue).jobs = s.jobs ∧ (s.waited queue).freed = s.freed ∧
    (s.waited queue).evtQ = s.evtQ ∧ (s.waited queue).evtWait = s.evtWait ∧ (s.waited queue).evtLost = s.evtLost ∧
    (s.waited queue).mirror = s.mirror ∧ (s.waited queue).mirrorNext = s.mirrorNext ∧
    (s.waited queue).mirrorHeld = s.mirrorHeld ∧ (s.waited queue).cal = s.cal ∧
    (s.waited queue).records = s.records ∧ (s.waited queue).pkg = s.pkg ∧ (s.waited queue).supply = s.supply ∧
    (s.waited queue).sec = s.sec ∧ (s.waited queue).recovery = s.recovery ∧
    (s.waited queue).resumeAvailable = s.resumeAvailable ∧ (s.waited queue).resumeArm = s.resumeArm ∧
    (s.waited queue).overload = s.overload ∧ (s.waited queue).nv = s.nv := by
  unfold State.waited; simp only [State.bump_frame, and_self]

/-- An event record changes Q_EVT, what it lost, and the credit counters. -/
@[simp] theorem State.emit_frame (s : State) (type source : Nat) (body : List Int) :
    (s.emit type source body).pending = s.pending ∧ (s.emit type source body).tick = s.tick ∧
    (s.emit type source body).tickEnd = s.tickEnd ∧ (s.emit type source body).modState = s.modState ∧
    (s.emit type source body).prevState = s.prevState ∧ (s.emit type source body).cause = s.cause ∧
    (s.emit type source body).entryTick = s.entryTick ∧ (s.emit type source body).commandStatus = s.commandStatus ∧
    (s.emit type source body).safeCauses = s.safeCauses ∧ (s.emit type source body).safetyOk = s.safetyOk ∧
    (s.emit type source body).answer = s.answer ∧ (s.emit type source body).answerData = s.answerData ∧
    (s.emit type source body).sent = s.sent ∧ (s.emit type source body).blobs = s.blobs ∧
    (s.emit type source body).armDict = s.armDict ∧ (s.emit type source body).layer = s.layer ∧
    (s.emit type source body).engines = s.engines ∧ (s.emit type source body).contexts = s.contexts ∧
    (s.emit type source body).lasers = s.lasers ∧ (s.emit type source body).claims = s.claims ∧
    (s.emit type source body).decidedAt = s.decidedAt ∧ (s.emit type source body).claimSerial = s.claimSerial ∧
    (s.emit type source body).remainders = s.remainders ∧ (s.emit type source body).tokens = s.tokens ∧
    (s.emit type source body).spare = s.spare ∧ (s.emit type source body).ledger = s.ledger ∧
    (s.emit type source body).lanes = s.lanes ∧ (s.emit type source body).capture = s.capture ∧
    (s.emit type source body).aout = s.aout ∧ (s.emit type source body).axes = s.axes ∧
    (s.emit type source body).cams = s.cams ∧ (s.emit type source body).planes = s.planes ∧
    (s.emit type source body).comp = s.comp ∧ (s.emit type source body).petals = s.petals ∧
    (s.emit type source body).scanNumber = s.scanNumber ∧ (s.emit type source body).sessions = s.sessions ∧
    (s.emit type source body).nodes = s.nodes ∧ (s.emit type source body).ringUp = s.ringUp ∧
    (s.emit type source body).ringV4 = s.ringV4 ∧ (s.emit type source body).uplinkV4 = s.uplinkV4 ∧
    (s.emit type source body).announceAt = s.announceAt ∧ (s.emit type source body).duplicateAt = s.duplicateAt ∧
    (s.emit type source body).discardAt = s.discardAt ∧ (s.emit type source body).discardSince = s.discardSince ∧
    (s.emit type source body).runningMinor = s.runningMinor ∧ (s.emit type source body).minorSetBy = s.minorSetBy ∧
    (s.emit type source body).profileBusy = s.profileBusy ∧
    (s.emit type source body).profileTarget = s.profileTarget ∧
    (s.emit type source body).profileFailed = s.profileFailed ∧
    (s.emit type source body).profileCause = s.profileCause ∧
    (s.emit type source body).activeProfile = s.activeProfile ∧
    (s.emit type source body).pinSelection = s.pinSelection ∧ (s.emit type source body).time = s.time ∧
    (s.emit type source body).mem = s.mem ∧ (s.emit type source body).poisoned = s.poisoned ∧
    (s.emit type source body).tableBase = s.tableBase ∧ (s.emit type source body).spillBase = s.spillBase ∧
    (s.emit type source body).tlb = s.tlb ∧ (s.emit type source body).sharedTlb = s.sharedTlb ∧
    (s.emit type source body).faults = s.faults ∧ (s.emit type source body).faultWait = s.faultWait ∧
    (s.emit type source body).lastFault = s.lastFault ∧ (s.emit type source body).dma = s.dma ∧
    (s.emit type source body).dram = s.dram ∧ (s.emit type source body).fetched = s.fetched ∧
    (s.emit type source body).inflaters = s.inflaters ∧ (s.emit type source body).jobs = s.jobs ∧
    (s.emit type source body).freed = s.freed ∧ (s.emit type source body).mirror = s.mirror ∧
    (s.emit type source body).mirrorNext = s.mirrorNext ∧ (s.emit type source body).mirrorHeld = s.mirrorHeld ∧
    (s.emit type source body).cal = s.cal ∧ (s.emit type source body).records = s.records ∧
    (s.emit type source body).pkg = s.pkg ∧ (s.emit type source body).supply = s.supply ∧
    (s.emit type source body).sec = s.sec ∧ (s.emit type source body).recovery = s.recovery ∧
    (s.emit type source body).resumeAvailable = s.resumeAvailable ∧
    (s.emit type source body).resumeArm = s.resumeArm ∧ (s.emit type source body).overload = s.overload ∧
    (s.emit type source body).nv = s.nv := by
  unfold State.emit; dsimp only; split <;> (try split) <;> simp only [State.waited_frame, State.bump_frame, and_self]

/-- Ending a procedure changes the calibration state alone. -/
@[simp] theorem State.abortOn_frame (s : State) (p : Option LaserId) (cause : Nat) :
    (s.abortOn p cause).pending = s.pending ∧ (s.abortOn p cause).free = s.free ∧
    (s.abortOn p cause).tick = s.tick ∧ (s.abortOn p cause).tickEnd = s.tickEnd ∧
    (s.abortOn p cause).modState = s.modState ∧ (s.abortOn p cause).prevState = s.prevState ∧
    (s.abortOn p cause).cause = s.cause ∧ (s.abortOn p cause).entryTick = s.entryTick ∧
    (s.abortOn p cause).commandStatus = s.commandStatus ∧ (s.abortOn p cause).safeCauses = s.safeCauses ∧
    (s.abortOn p cause).safetyOk = s.safetyOk ∧ (s.abortOn p cause).answer = s.answer ∧
    (s.abortOn p cause).answerData = s.answerData ∧ (s.abortOn p cause).sent = s.sent ∧
    (s.abortOn p cause).dict = s.dict ∧ (s.abortOn p cause).blobs = s.blobs ∧
    (s.abortOn p cause).armDict = s.armDict ∧ (s.abortOn p cause).layer = s.layer ∧
    (s.abortOn p cause).engines = s.engines ∧ (s.abortOn p cause).contexts = s.contexts ∧
    (s.abortOn p cause).lasers = s.lasers ∧ (s.abortOn p cause).claims = s.claims ∧
    (s.abortOn p cause).decidedAt = s.decidedAt ∧ (s.abortOn p cause).claimSerial = s.claimSerial ∧
    (s.abortOn p cause).remainders = s.remainders ∧ (s.abortOn p cause).tokens = s.tokens ∧
    (s.abortOn p cause).spare = s.spare ∧ (s.abortOn p cause).ledger = s.ledger ∧
    (s.abortOn p cause).lanes = s.lanes ∧ (s.abortOn p cause).capture = s.capture ∧
    (s.abortOn p cause).aout = s.aout ∧ (s.abortOn p cause).axes = s.axes ∧ (s.abortOn p cause).cams = s.cams ∧
    (s.abortOn p cause).planes = s.planes ∧ (s.abortOn p cause).comp = s.comp ∧
    (s.abortOn p cause).petals = s.petals ∧ (s.abortOn p cause).scanNumber = s.scanNumber ∧
    (s.abortOn p cause).sessions = s.sessions ∧ (s.abortOn p cause).nodes = s.nodes ∧
    (s.abortOn p cause).ringUp = s.ringUp ∧ (s.abortOn p cause).ringV4 = s.ringV4 ∧
    (s.abortOn p cause).uplinkV4 = s.uplinkV4 ∧ (s.abortOn p cause).announceAt = s.announceAt ∧
    (s.abortOn p cause).duplicateAt = s.duplicateAt ∧ (s.abortOn p cause).discardAt = s.discardAt ∧
    (s.abortOn p cause).discardSince = s.discardSince ∧ (s.abortOn p cause).runningMinor = s.runningMinor ∧
    (s.abortOn p cause).minorSetBy = s.minorSetBy ∧ (s.abortOn p cause).profileBusy = s.profileBusy ∧
    (s.abortOn p cause).profileTarget = s.profileTarget ∧ (s.abortOn p cause).profileFailed = s.profileFailed ∧
    (s.abortOn p cause).profileCause = s.profileCause ∧ (s.abortOn p cause).activeProfile = s.activeProfile ∧
    (s.abortOn p cause).pinSelection = s.pinSelection ∧ (s.abortOn p cause).time = s.time ∧
    (s.abortOn p cause).mem = s.mem ∧ (s.abortOn p cause).poisoned = s.poisoned ∧
    (s.abortOn p cause).tableBase = s.tableBase ∧ (s.abortOn p cause).spillBase = s.spillBase ∧
    (s.abortOn p cause).tlb = s.tlb ∧ (s.abortOn p cause).sharedTlb = s.sharedTlb ∧
    (s.abortOn p cause).faults = s.faults ∧ (s.abortOn p cause).faultWait = s.faultWait ∧
    (s.abortOn p cause).lastFault = s.lastFault ∧ (s.abortOn p cause).dma = s.dma ∧
    (s.abortOn p cause).dram = s.dram ∧ (s.abortOn p cause).fetched = s.fetched ∧
    (s.abortOn p cause).inflaters = s.inflaters ∧ (s.abortOn p cause).jobs = s.jobs ∧
    (s.abortOn p cause).freed = s.freed ∧ (s.abortOn p cause).evtQ = s.evtQ ∧
    (s.abortOn p cause).evtWait = s.evtWait ∧ (s.abortOn p cause).evtLost = s.evtLost ∧
    (s.abortOn p cause).mirror = s.mirror ∧ (s.abortOn p cause).mirrorNext = s.mirrorNext ∧
    (s.abortOn p cause).mirrorHeld = s.mirrorHeld ∧ (s.abortOn p cause).records = s.records ∧
    (s.abortOn p cause).pkg = s.pkg ∧ (s.abortOn p cause).supply = s.supply ∧ (s.abortOn p cause).sec = s.sec ∧
    (s.abortOn p cause).recovery = s.recovery ∧ (s.abortOn p cause).resumeAvailable = s.resumeAvailable ∧
    (s.abortOn p cause).resumeArm = s.resumeArm ∧ (s.abortOn p cause).overload = s.overload ∧
    (s.abortOn p cause).nv = s.nv := by
  unfold State.abortOn; split <;> (and_intros <;> rfl)

/-- The audit record of a write changes what an event record changes. -/
@[simp] theorem State.audit_frame (s : State) (q : Sess) (index sub status : Nat) :
    (s.audit q index sub status).pending = s.pending ∧ (s.audit q index sub status).tick = s.tick ∧
    (s.audit q index sub status).tickEnd = s.tickEnd ∧ (s.audit q index sub status).modState = s.modState ∧
    (s.audit q index sub status).prevState = s.prevState ∧ (s.audit q index sub status).cause = s.cause ∧
    (s.audit q index sub status).entryTick = s.entryTick ∧
    (s.audit q index sub status).commandStatus = s.commandStatus ∧
    (s.audit q index sub status).safeCauses = s.safeCauses ∧ (s.audit q index sub status).safetyOk = s.safetyOk ∧
    (s.audit q index sub status).answer = s.answer ∧ (s.audit q index sub status).answerData = s.answerData ∧
    (s.audit q index sub status).sent = s.sent ∧ (s.audit q index sub status).blobs = s.blobs ∧
    (s.audit q index sub status).armDict = s.armDict ∧ (s.audit q index sub status).layer = s.layer ∧
    (s.audit q index sub status).engines = s.engines ∧ (s.audit q index sub status).contexts = s.contexts ∧
    (s.audit q index sub status).lasers = s.lasers ∧ (s.audit q index sub status).claims = s.claims ∧
    (s.audit q index sub status).decidedAt = s.decidedAt ∧
    (s.audit q index sub status).claimSerial = s.claimSerial ∧
    (s.audit q index sub status).remainders = s.remainders ∧ (s.audit q index sub status).tokens = s.tokens ∧
    (s.audit q index sub status).spare = s.spare ∧ (s.audit q index sub status).ledger = s.ledger ∧
    (s.audit q index sub status).lanes = s.lanes ∧ (s.audit q index sub status).capture = s.capture ∧
    (s.audit q index sub status).aout = s.aout ∧ (s.audit q index sub status).axes = s.axes ∧
    (s.audit q index sub status).cams = s.cams ∧ (s.audit q index sub status).planes = s.planes ∧
    (s.audit q index sub status).comp = s.comp ∧ (s.audit q index sub status).petals = s.petals ∧
    (s.audit q index sub status).scanNumber = s.scanNumber ∧ (s.audit q index sub status).sessions = s.sessions ∧
    (s.audit q index sub status).nodes = s.nodes ∧ (s.audit q index sub status).ringUp = s.ringUp ∧
    (s.audit q index sub status).ringV4 = s.ringV4 ∧ (s.audit q index sub status).uplinkV4 = s.uplinkV4 ∧
    (s.audit q index sub status).announceAt = s.announceAt ∧
    (s.audit q index sub status).duplicateAt = s.duplicateAt ∧
    (s.audit q index sub status).discardAt = s.discardAt ∧
    (s.audit q index sub status).discardSince = s.discardSince ∧
    (s.audit q index sub status).runningMinor = s.runningMinor ∧
    (s.audit q index sub status).minorSetBy = s.minorSetBy ∧
    (s.audit q index sub status).profileBusy = s.profileBusy ∧
    (s.audit q index sub status).profileTarget = s.profileTarget ∧
    (s.audit q index sub status).profileFailed = s.profileFailed ∧
    (s.audit q index sub status).profileCause = s.profileCause ∧
    (s.audit q index sub status).activeProfile = s.activeProfile ∧
    (s.audit q index sub status).pinSelection = s.pinSelection ∧ (s.audit q index sub status).time = s.time ∧
    (s.audit q index sub status).mem = s.mem ∧ (s.audit q index sub status).poisoned = s.poisoned ∧
    (s.audit q index sub status).tableBase = s.tableBase ∧ (s.audit q index sub status).spillBase = s.spillBase ∧
    (s.audit q index sub status).tlb = s.tlb ∧ (s.audit q index sub status).sharedTlb = s.sharedTlb ∧
    (s.audit q index sub status).faults = s.faults ∧ (s.audit q index sub status).faultWait = s.faultWait ∧
    (s.audit q index sub status).lastFault = s.lastFault ∧ (s.audit q index sub status).dma = s.dma ∧
    (s.audit q index sub status).dram = s.dram ∧ (s.audit q index sub status).fetched = s.fetched ∧
    (s.audit q index sub status).inflaters = s.inflaters ∧ (s.audit q index sub status).jobs = s.jobs ∧
    (s.audit q index sub status).freed = s.freed ∧ (s.audit q index sub status).mirror = s.mirror ∧
    (s.audit q index sub status).mirrorNext = s.mirrorNext ∧
    (s.audit q index sub status).mirrorHeld = s.mirrorHeld ∧ (s.audit q index sub status).cal = s.cal ∧
    (s.audit q index sub status).records = s.records ∧ (s.audit q index sub status).pkg = s.pkg ∧
    (s.audit q index sub status).supply = s.supply ∧ (s.audit q index sub status).sec = s.sec ∧
    (s.audit q index sub status).recovery = s.recovery ∧
    (s.audit q index sub status).resumeAvailable = s.resumeAvailable ∧
    (s.audit q index sub status).resumeArm = s.resumeArm ∧ (s.audit q index sub status).overload = s.overload ∧
    (s.audit q index sub status).nv = s.nv := by
  unfold State.audit; split <;> (try split) <;> simp only [State.emit_frame, and_self]

end Sys2Proof.Machine
end

