-- ==== Sys2Proof/Laws/Access.lean ====
section
/-!
SUPPORT. Laws of host access: what a granted write does, and what an access that is not served does.
-/
namespace Sys2Proof.Machine

/-- A granted write runs the row's own behaviour on the state with the session's record noted, then the audit record and
the answer. -/
theorem host_of_admits {s : State} {q : Sess} {index sub : Nat} {v : Int} (h : s.admits q index sub v = true)
    (act : State → State × Nat) :
    s.host q index sub v act
      = ((act (s.touch q)).1.audit q index sub (act (s.touch q)).2).reply (act (s.touch q)).2 := by
  unfold State.admits at h
  unfold State.host State.hostWith
  simp only [Bool.and_eq_true] at h
  obtain ⟨hs, h⟩ := h
  rw [if_pos hs]
  cases hx : s.sessions[q] with
  | none => simp [hx] at h
  | some x =>
    cases hd : findEntry index sub with
    | none => simp [hx, hd] at h
    | some d =>
      simp only [hx, hd, Bool.and_eq_true, Option.isNone_iff_eq_none, Bool.not_eq_true'] at h
      obtain ⟨⟨h1, h2⟩, h3⟩ := h
      simp only [h1, h2, h3, Bool.false_eq_true, if_false, Bool.false_and]

/-- A write that is not served changes nothing (R24, R390). -/
theorem host_not_served {s : State} {q : Sess} (h : s.served q = false) (index sub : Nat) (v : Int)
    (act : State → State × Nat) : s.host q index sub v act = s := by
  simp [State.host, State.hostWith, h]

end Sys2Proof.Machine
end

