-- ==== Sys2Proof/Laws/Effects.lean ====
section
/-!
SUPPORT. What each shared operation can change, said once: counters, event records, audit records, the noting of a
session's record, and everything a host's write can come to.
-/
namespace Sys2Proof.Machine

/-- Counting changes the dictionary, and takes a free value where the counter is at its highest. -/
theorem count_eq (s : State) (i j n : Nat) :
    s.count i j n = { s with dict := (s.count i j n).dict, free := (s.count i j n).free } := by
  unfold State.count
  dsimp only
  split <;> split <;> rfl

/-- A counter entry of the module is no setting of a host. -/
theorem count_settings (s : State) (i j n : Nat) (h : hostKey (entryKey i j) = false) : SettingsKept s (s.count i j n) := by
  unfold State.count
  dsimp only
  split <;> split
  · exact settings_put _ _ _ _ h
  · exact settings_put { s with free := s.free + 1 } _ _ _ h
  · exact settings_put _ _ _ _ h
  · exact settings_put { s with free := s.free + 1 } _ _ _ h

/-- A record changes Q_EVT, its loss counts, the records that wait, and the counters of waits and losses. -/
theorem emit_eq (s : State) (type source : Nat) (body : List Int) :
    s.emit type source body = { s with
      evtQ := (s.emit type source body).evtQ, evtLost := (s.emit type source body).evtLost
      evtWait := (s.emit type source body).evtWait
      dict := (s.emit type source body).dict, free := (s.emit type source body).free } := by
  unfold State.emit
  dsimp only
  split
  · rfl
  · split
    · rw [State.bump, count_eq]
    · rw [State.waited, State.bump, count_eq]

/-- A record changes no setting of a host. -/
theorem emit_settings (s : State) (type source : Nat) (body : List Int) : SettingsKept s (s.emit type source body) := by
  unfold State.emit
  dsimp only
  split
  · exact fun _ _ => rfl
  · split
    · exact count_settings { s with evtLost := _ } _ _ _ (by decide +kernel)
    · exact count_settings { s with evtWait := _ } _ _ _ (by decide +kernel)

/-- The record of an area with credit stands last in Q_EVT. -/
theorem emit_evtQ (s : State) {type : Nat} (h : (s.evtCredit (areaOf type) && !s.evtWaits (areaOf type)) = true)
    (source : Nat) (body : List Int) :
    (s.emit type source body).evtQ = s.evtQ ++
      [{ type := type, source := source, lost := min ((assocGet (areaOf type) s.evtLost).getD 0) 65535, body := body }] := by
  unfold State.emit
  dsimp only
  rw [if_pos h]

/-- An audited write changes what a record changes. -/
theorem audit_eq (s : State) (q : Sess) (index sub status : Nat) :
    s.audit q index sub status = { s with
      evtQ := (s.audit q index sub status).evtQ, evtLost := (s.audit q index sub status).evtLost
      evtWait := (s.audit q index sub status).evtWait
      dict := (s.audit q index sub status).dict, free := (s.audit q index sub status).free } := by
  unfold State.audit
  split
  · split
    · exact emit_eq ..
    · rfl
  · rfl

/-- An audit record changes no setting of a host. -/
theorem audit_settings (s : State) (q : Sess) (index sub status : Nat) : SettingsKept s (s.audit q index sub status) := by
  unfold State.audit
  split
  · split
    · exact emit_settings _ _ _ _
    · exact SettingsKept.refl s
  · exact SettingsKept.refl s

/-- The noting of a session's record changes the sessions. -/
theorem touch_eq (s : State) (q : Sess) : s.touch q = { s with sessions := (s.touch q).sessions } := rfl

/-- All that a host's write comes to: no answer, a refusal that is audited, a refusal for an entry that is not there, or
the row's own behaviour. -/
theorem host_cases (s : State) (q : Sess) (index sub : Nat) (v : Int) (act : State → State × Nat) :
    s.host q index sub v act = s ∨
    (∃ st, s.host q index sub v act = ((s.touch q).audit q index sub st).reply st) ∨
    (∃ st, s.host q index sub v act = (s.touch q).reply st) ∨
    s.host q index sub v act
      = ((act (s.touch q)).1.audit q index sub (act (s.touch q)).2).reply (act (s.touch q)).2 := by
  unfold State.host State.hostWith
  split
  · split
    · split
      · exact .inr (.inl ⟨_, rfl⟩)
      · split
        · exact .inr (.inl ⟨_, rfl⟩)
        · split
          · exact .inr (.inl ⟨_, rfl⟩)
          · exact .inr (.inr (.inr (by simp)))
    · exact .inr (.inr (.inl ⟨_, rfl⟩))
    · exact .inl rfl
  · exact .inl rfl

/-- A host's write keeps whatever its own behaviour keeps, if notes of sessions, records and answers do not touch it. -/
theorem host_keeps {β : Type} (π : State → β) (s : State) (q : Sess) (index sub : Nat) (v : Int)
    (act : State → State × Nat) (touch : ∀ t, π (t.touch q) = π t)
    (audit : ∀ t n, π (t.audit q index sub n) = π t) (reply : ∀ t n, π (t.reply n) = π t)
    (h : π (act (s.touch q)).1 = π (s.touch q)) : π (s.host q index sub v act) = π s := by
  rcases host_cases s q index sub v act with e | ⟨st, e⟩ | ⟨st, e⟩ | e
  · rw [e]
  · rw [e, reply, audit, touch]
  · rw [e, reply, touch]
  · rw [e, reply, audit, h, touch]

end Sys2Proof.Machine
end

