-- ==== Sys2Proof/Laws/Engine.lean ====
section
/-!
SUPPORT. Laws of the engine operations: the word under execution, going on to the next word, and what each operation
keeps of the engine's parameter state.
-/
namespace Sys2Proof.Machine

/-- The engine changed, and the others. -/
@[simp] theorem modEngine_get (s : State) (e : EngineId) (f : Engine → Engine) :
    (s.modEngine e f).engines[e] = f s.engines[e] := by
  simp only [State.modEngine, vmod_get_self]

theorem modEngine_get_ne (s : State) {e i : EngineId} (f : Engine → Engine) (h : i ≠ e) :
    (s.modEngine e f).engines[i] = s.engines[i] := by
  simp only [State.modEngine]; exact vmod_get_ne _ _ h

/-- Two changes of one engine are one change. -/
theorem modEngine_modEngine (s : State) (e : EngineId) (f g : Engine → Engine) :
    (s.modEngine e f).modEngine e g = s.modEngine e fun x => g (f x) := by
  simp [State.modEngine, vmod]

/-- A word row acts on its own word. -/
theorem onWord_at {s : State} {e : EngineId} {w : VWord} (h : s.wordAt e w = true) (f : VWord → Option State) :
    s.onWord e f = (f w).getD s := by
  simp only [State.wordAt, Bool.and_eq_true, beq_iff_eq, Option.isNone_iff_eq_none] at h
  simp only [State.onWord, h.1.1, h.1.2, h.2, if_true]

/-- Inside a block, and not at the edge of a member of a group, going on is one word further. -/
theorem toNext_goesOn {s : State} {e : EngineId} (h : s.goesOn e = true) :
    s.engines[e].toNext = { s.engines[e] with wordOff := s.engines[e].wordOff + 1 } := by
  simp only [State.goesOn, Bool.and_eq_true, decide_eq_true_eq] at h
  obtain ⟨_, h2⟩ := h
  generalize s.engines[e] = g at *
  unfold Engine.toNext
  split
  · rename_i gr hg
    simp only [hg, Bool.and_eq_true, bne_iff_ne, Bool.not_eq_true'] at h2
    simp only [h2.2, Ne.symm h2.1, decide_false, Bool.or_false, Bool.and_false, Bool.false_eq_true, if_false]
  · rfl

/-- The state that going on leaves inside a block. -/
theorem advance_goesOn {s : State} {e : EngineId} (h : s.goesOn e = true) :
    s.advance e = s.modEngine e fun g => { g with wordOff := g.wordOff + 1 } := by
  have hn := toNext_goesOn h
  have hm : s.modEngine e Engine.toNext = s.modEngine e fun g => { g with wordOff := g.wordOff + 1 } := by
    simp only [State.modEngine, vmod, hn]
  simp only [State.goesOn, Bool.and_eq_true, decide_eq_true_eq] at h
  unfold State.advance
  simp only [hm]
  exact if_neg (by simp only [modEngine_get]; exact Nat.not_le.mpr h.1)

end Sys2Proof.Machine
end

