-- ==== Sys2Proof/Laws/Memory.lean ====
section
/-!
SUPPORT. Laws of working memory as data: what a read gives after a write, and that every write keeps the canonical form.
-/
namespace Sys2Proof.Machine

/-- A list whose keys rise from a higher bound rises from a lower one. -/
theorem cellsFrom_mono {lo hi : Nat} (h : lo ≤ hi) {m : List Host.Cell} (w : cellsFrom hi m = true) : cellsFrom lo m = true := by
  cases m with
  | nil => rfl
  | cons c t =>
    simp only [cellsFrom, Bool.and_eq_true, decide_eq_true_eq] at w ⊢
    exact ⟨⟨by omega, w.1.2⟩, w.2⟩

/-- One byte written: the form is kept. -/
theorem cellsFrom_memWrite {lo x : Nat} (v : Byte) (h : lo ≤ x) {m : List Host.Cell} (w : cellsFrom lo m = true) :
    cellsFrom lo (memWrite m x v) = true := by
  induction m generalizing lo with
  | nil =>
    unfold memWrite
    split
    · rfl
    · simp [cellsFrom, *]
  | cons c t ih =>
    obtain ⟨a, b⟩ := c
    simp only [cellsFrom, Bool.and_eq_true, decide_eq_true_eq] at w
    obtain ⟨⟨wa, wb⟩, wt⟩ := w
    unfold memWrite
    split
    · rename_i hx
      split
      · simp [cellsFrom, *]
      · simp only [cellsFrom, Bool.and_eq_true, decide_eq_true_eq]
        exact ⟨⟨h, by assumption⟩, ⟨⟨by omega, wb⟩, wt⟩⟩
    · split
      · rename_i hx
        split
        · exact cellsFrom_mono (by omega) wt
        · simp_all [cellsFrom]
      · simp only [cellsFrom, Bool.and_eq_true, decide_eq_true_eq]
        exact ⟨⟨wa, wb⟩, ih (by omega) wt⟩

/-- Below its first key a list reads as the fill. -/
theorem memRead_below {lo x : Nat} (h : x < lo) {m : List Host.Cell} (w : cellsFrom lo m = true) : memRead m x = memFill := by
  cases m with
  | nil => rfl
  | cons c t =>
    simp only [cellsFrom, Bool.and_eq_true, decide_eq_true_eq] at w
    simp only [memRead]
    rw [if_pos (by omega)]

/-- A byte written is read back. -/
theorem memRead_memWrite_same {m : List Host.Cell} (w : Memory.wf m = true) (x : Nat) (v : Byte) :
    memRead (memWrite m x v) x = v := by
  suffices ∀ lo, cellsFrom lo m = true → memRead (memWrite m x v) x = v from this 0 w
  clear w
  induction m with
  | nil => intro lo _; unfold memWrite; split <;> simp [memRead, *]
  | cons c t ih =>
    intro lo w
    obtain ⟨a, b⟩ := c
    simp only [cellsFrom, Bool.and_eq_true, decide_eq_true_eq] at w
    unfold memWrite
    split
    · split <;> simp [memRead, *]
    · split
      · split
        · rename_i hx hv
          subst hx hv
          exact memRead_below (Nat.lt_succ_self _) w.2
        · simp [memRead]
      · simp only [memRead]
        rw [if_neg (by assumption), if_neg (by assumption)]
        exact ih _ w.2

/-- A byte written leaves every other byte. -/
theorem memRead_memWrite_ne {m : List Host.Cell} (w : Memory.wf m = true) {x y : Nat} (h : y ≠ x) (v : Byte) :
    memRead (memWrite m x v) y = memRead m y := by
  suffices ∀ lo, cellsFrom lo m = true → memRead (memWrite m x v) y = memRead m y from this 0 w
  clear w
  induction m with
  | nil => intro lo _; unfold memWrite; split <;> simp [memRead, h]
  | cons c t ih =>
    intro lo w
    obtain ⟨a, b⟩ := c
    simp only [cellsFrom, Bool.and_eq_true, decide_eq_true_eq] at w
    unfold memWrite
    split
    · split
      · rfl
      · rename_i hx hv
        by_cases hy : y < x
        · simp only [memRead]; rw [if_pos hy, if_pos (by omega)]
        · simp only [memRead]; rw [if_neg hy, if_neg h]
    · split
      · rename_i hx
        subst hx
        split
        · by_cases hy : y < x
          · simp only [memRead]; rw [if_pos hy]
            exact memRead_below (by omega) w.2
          · simp only [memRead]; rw [if_neg hy, if_neg h]
        · simp only [memRead, if_neg h]
      · simp only [memRead]
        split
        · rfl
        · split
          · rfl
          · exact ih _ w.2

/-- Every write keeps the canonical form. -/
theorem wf_memWrite {m : List Host.Cell} (w : Memory.wf m = true) (x : Nat) (v : Byte) : Memory.wf (memWrite m x v) = true :=
  cellsFrom_memWrite v (Nat.zero_le x) w

/-- A run of bytes written keeps the canonical form. -/
theorem wf_memWriteN {m : List Host.Cell} (w : Memory.wf m = true) (x : Nat) (b : Bytes) :
    Memory.wf (memWriteN m x b) = true := by
  induction b generalizing m x with
  | nil => exact w
  | cons v t ih => exact ih (wf_memWrite w x v) (x + 1)

/-- The memory of the state after reset has the canonical form. -/
theorem reset_memory_wf : Memory.wf State.reset.mem = true := rfl

end Sys2Proof.Machine
end

