-- ==== Sys2Proof/WellFormed.lean ====
section
/-!
DEFINITION. Well-formed commands: what the operand types do not say of an operand that reports something observed.
Every row that a host writes is checked by its own meaning, so any operand of it is well formed.
-/
namespace Sys2Proof

/-- A lane count and a rate that DisplayPort training can report (R227): 1, 2 or 4 lanes. -/
def dpCombination (t : Nat × Nat) : Bool := t.1 == 1 || t.1 == 2 || t.1 == 4

/-- A raw sample of a 14-bit converter (R250). -/
def sampleFits (x : Int) : Bool := decide (-8192 ≤ x) && decide (x ≤ 8191)

/-- What a procedure observed: raw values of 16 bits (R205), one figure for a head (R203), one mean for a bin of the
oscillator table (R208). -/
def CalObs.wellFormed : CalObs → Bool
  | .cross seam => decide (seam.length ≤ 12)
  | .pd offA onA offB onB => decide (offA < 65536) && decide (onA < 65536) && decide (offB < 65536) && decide (onB < 65536)
  | .osc bins _ => decide (bins.map (·.1)).Nodup
  | .map .. | .focus .. | .lag .. | .drift .. | .power | .eye .. | .sensor .. => true

/-- The command's operands fit the row: one entry for a thing in a list over things, 19 readings of a round (R351), a
request that stays in its line of 64 octets (R304), two attempts for each of two copies (R192), two firmware slots (R369). -/
def Instr.wellFormed : Instr → Bool
  | .takeover failures _ _ => decide (failures.map (·.1)).Nodup
  | .trimEnd pass codes => !pass || codes.length == 8
  | .calDone obs => obs.wellFormed
  | .recordCommitDone programmed => decide (programmed.length ≤ 4)
  | .dpHpd _ trains _ => trains.all dpCombination
  | .dpRetrain trains => trains.all dpCombination
  | .scanBoundary columnFails => decide columnFails.Nodup
  | .sincosSample _ sinRaw cosRaw => sampleFits sinRaw && sampleFits cosRaw
  | .profileStored programmed => decide (programmed.length ≤ 4)
  | .ptpAnnounce _ _ _ _ _ states _ => decide (states.map (·.1)).Nodup
  | .ptpForward _ _ _ kind _ _ => decide (kind.messageType ≤ 15)
  | .announceReceiptTimeout _ states => decide (states.map (·.1)).Nodup
  | .patrolScrub _ errors => decide (errors.map (·.1)).Nodup
  | .memoryRequest _ _ _ address write errors => decide (address % 64 + (write.getD []).length ≤ 64) && decide (errors.map (·.1)).Nodup
  | .housekeepingRound readings => readings.length == 19
  | .bootAuthenticated slots _ _ margins => decide (slots.length ≤ 2) && margins.length == 4
  | .packageDecrypted placement _ _ => decide placement.Nodup
  | .arm .. | .disarm .. | .start .. | .pause .. | .resume .. | .abort .. | .clearSafe .. | .enterService ..
  | .leaveService .. | .restart .. | .scheduledStartWrite .. | .layerStartAtWrite .. | .jump .. | .mark ..
  | .setMarkSpeed .. | .setJumpLimits .. | .setPower .. | .setFocus .. | .setLaserDelays .. | .setCorner ..
  | .setpoint .. | .dwell .. | .tokenSignal .. | .tokenWait .. | .tokenWaitSatisfied .. | .seam .. | .seamWaitEnd ..
  | .groupBegin .. | .groupEnd .. | .preempt .. | .label .. | .layerEnd .. | .endWord .. | .powerSlot ..
  | .upstreamFrame .. | .hfaultUnavailable .. | .linkLost .. | .linkStartup .. | .linkAlign .. | .linkIdentify ..
  | .linkUp .. | .startupTimeout .. | .linkRetry .. | .linkEnableWrite .. | .auxRead .. | .auxWrite ..
  | .auxResponse .. | .auxTimeout .. | .laserUnavailable .. | .laserAvailable .. | .emitReadback ..
  | .safetyOkFall .. | .safetyOkRise .. | .readyTimeout .. | .layerEndForced .. | .bufferEmptyStall ..
  | .stallResume .. | .blockFetch .. | .blockInflate .. | .claimDecision .. | .keepoutRelease .. | .waitBound ..
  | .stealAttempt .. | .tokenTimeout .. | .preemption .. | .contextFill .. | .trimRequest .. | .trimWithdraw ..
  | .deposit .. | .ledgerTileFill .. | .ledgerSweep .. | .lookaheadResult .. | .samplePair .. | .anomalyStart ..
  | .laneRun .. | .feedbackReturned .. | .axisLaneRun .. | .chainCommit .. | .injStart .. | .injectionEnd ..
  | .capStart .. | .profStart .. | .initHead .. | .headMap .. | .focusMap .. | .gateAlign .. | .driftPoint ..
  | .crossCheck .. | .powerLin .. | .powerReading .. | .pdGain .. | .linkEye .. | .sensorOffset .. | .oscModel ..
  | .calStop .. | .calAcceptCommit .. | .calAcceptDiscard .. | .recordImport .. | .camFrameStart ..
  | .camLongPacket .. | .camFrameEnd .. | .frameTimeout .. | .portCommit .. | .trigNow .. | .trigPeriod ..
  | .exposureEnd .. | .planeCommit .. | .planeFlip .. | .scaleDone .. | .planeTransparent .. | .outCommit ..
  | .reflatten .. | .writebackFault .. | .ntcReading .. | .dutyWrite .. | .enable .. | .enableDone .. | .disable ..
  | .moveAbs .. | .moveRel .. | .jog .. | .stop .. | .home .. | .coord .. | .clear .. | .follow .. | .setPosition ..
  | .accelLimitWrite .. | .velLimitWrite .. | .profilePeriod .. | .stopComplete .. | .inPosition .. | .stepInEdge ..
  | .encoderEdge .. | .indexPulse .. | .standstillTimeout .. | .switchChange .. | .stall .. | .axisFeedbackLost ..
  | .homingTimeout .. | .readReq .. | .writeReq .. | .entryWrite .. | .subscribeReq .. | .cyclic .. | .echoReq ..
  | .announceReceived .. | .nodeUnheard .. | .sessionOpened .. | .sessionTimeout .. | .ringFrameForward ..
  | .ringPort .. | .storeProfile .. | .switchProfile .. | .loadDefaults .. | .setTime .. | .ptpSync ..
  | .ptpDelayMessage .. | .latchEdge .. | .latchDataRead .. | .clockMonitor .. | .refresh .. | .zqShort ..
  | .neighbourRefresh .. | .refreshWindowEnd .. | .deviceMarked .. | .ageRaise .. | .markedDeviceClear ..
  | .translationFault .. | .faultResolved .. | .tlbInvalidate .. | .dmaSubmit .. | .dmaChunk .. | .compressSubmit ..
  | .compressCancel .. | .pageProgram .. | .flushInterval .. | .ringBlockErase .. | .snapOpen .. | .snapClose ..
  | .snapHoldExpiry .. | .pfWarn .. | .pfStop .. | .inputLost .. | .inputRestored .. | .holdupReturn ..
  | .holdupRailLow .. | .converterStop .. | .resumeArm .. | .resumeDiscard .. | .sensorExcluded ..
  | .thermalShutdown .. | .resetL .. | .powerOn .. | .resetRelease .. | .selftestDone .. | .vioLow ..
  | .outputOverload .. | .handshakeFailed .. | .lockoutExpiry .. | .keyUpdate .. | .accountWrite ..
  | .packageData .. | .firmwareImage .. | .firmwareActivate .. | .selfTestRun .. | .cryptoSelftestFailure ..
  | .tamper .. | .tamperAck .. | .certifiedModeWrite .. | .headTemperatureStale .. | .brakeRelease .. | .enaOff ..
  | .vioRestored .. | .pfWarnCleared .. | .chatterCleared .. | .scheduledStartReached .. | .update ..
  | .layerStart .. | .layerComplete .. | .heldRemaindersLost .. | .contextSpill .. | .standinRoute ..
  | .trimStart .. | .handBack .. | .captureDone .. | .readingTimeout .. | .calAborted .. | .outputFrameBoundary ..
  | .flattenDone .. | .layerStageStart .. | .announceSend .. | .hostLoss .. | .syncLoss .. | .secondBoundary ..
  | .tickAnchor .. | .ppsEnd .. | .oscTrim .. | .faultTimeout .. | .compressChunk .. | .eventRecordTaken ..
  | .mirrorWrite .. | .resumeCopy .. | .throttleStage2 .. | .thermalRestart .. | .watchdog .. | .firmwareFailover ..
  | .zeroisationDone .. | .pllLock .. => true

end Sys2Proof
end

