-- ==== Sys2Proof/Tests/Slice0.lean ====
section
/-!
SUPPORT. Tests of the model: commands whose operands are not well formed are refused by WellFormed, worked examples of the
spec, and for each statement of Certificates/Slice0/Obligations.lean a state and operands that meet the hypotheses of every
clause.
-/
namespace Sys2Proof.Tests
open Sys2Proof Sys2Proof.Machine

set_option Elab.async false

set_option maxRecDepth 100000

/-- A state of the module with a session of a role open at place 0. -/
def on (m : ModState) (r : Role := .service) : State :=
  { State.reset with modState := m, sessions := State.reset.sessions.set 0 (some { role := r }) }

/-- Engine 3 executes the first of some words. -/
def run (ws : List VWord) (f : Engine → Engine := id) : State :=
  State.reset.modEngine 3 fun g => f { g with st := .running, buf := [{ words := ws }] }

/-- Laser 2 is as said, in a state of the module. -/
def las (f : Laser → Laser) (m : ModState := .ready) : State := (on m).modLaser 2 f

/-- The octets of words. -/
def wordBytes (ws : List VWord) : Bytes := ws.flatMap fun w => leBytes 8 (encodeWord w)

/-- A block with the seven parameter words and one jump. -/
def sample : List VWord :=
  [.setMarkSpeed 1000000, .setJumpLimits 5000 200 90 8, .setPower 100, .setFocus 0, .setLaserDelays 0 0 0,
   .setCorner 100 0 65535, .setpoint 1 0 0 65535, .jump false 10 20]

/-- The header of a block of words. -/
def headerOf (ws : List VWord) : BlockHeader := { wordCount := ws.length, payloadCrc := crc32c (wordBytes ws) }

/-- Engine 3 with its laser in place and a state of its own. -/
def eng (f : Engine → Engine) : State := State.reset.modEngine 3 f

/-- A readable and writable page of space 5 for a master. -/
def page (m : Master) (v p : Nat) : Nat × TlbEntry :=
  (masterCode m, { space := 5, vpage := v, ppage := p, r := true, w := true })

theorem of_ok {ε α : Type} {x : Except ε α} {a : α} (h : x.toOption = some a) : x = .ok a := by
  cases x <;> simp_all [Except.toOption]

theorem of_error {ε α : Type} {x : Except ε α} {a : ε} (h : (match x with | .error e => some e | _ => none) = some a) :
    x = .error a := by
  cases x <;> simp_all

theorem of_pair {σ ε α : Type} {x : σ × Except ε α} {a : α} (h : x.2.toOption = some a) : x = (x.1, .ok a) := by
  rw [← of_ok h]

theorem of_read {σ α : Type} {x : σ × α} {a : α} (h : x.2 = a) : x = (x.1, a) := by rw [← h]

/-- Axis 2, of a type, is as said, in a state of the module. -/
def ax (f : Axis → Axis) (type : Int := 1) (m : ModState := .ready) : State := ((on m .integrator).modAxis 2 f).put 0x6203 1 type

/-- Tables at 65,536, 131,072 and 196,608 that map page 0 of a space to the page at 262,144. -/
def tables : List Host.Cell :=
  memWriteN (memWriteN (memWriteN [] 65536 (leBytes 8 131073)) 131072 (leBytes 8 196609)) 196608 (leBytes 8 262159)

/-! Commands whose operands are not well formed. -/

theorem test_ill_formed_takeover : (Instr.takeover [(3, 2), (3, 1)] {} []).wellFormed = false := by decide
theorem test_ill_formed_trimEnd : (Instr.trimEnd true [1, 2, 3]).wellFormed = false := by decide
theorem test_ill_formed_calDone_cross : (Instr.calDone (.cross (List.replicate 13 0))).wellFormed = false := by decide
theorem test_ill_formed_calDone_pd : (Instr.calDone (.pd 0 65536 0 0)).wellFormed = false := by decide
theorem test_ill_formed_calDone_osc : (Instr.calDone (.osc [(4, 0, 60), (4, 1, 60)] 0)).wellFormed = false := by decide
theorem test_ill_formed_recordCommitDone :
    (Instr.recordCommitDone [true, true, true, true, true]).wellFormed = false := by decide
theorem test_ill_formed_dpHpd : (Instr.dpHpd true [(3, 20)] []).wellFormed = false := by decide
theorem test_ill_formed_dpRetrain : (Instr.dpRetrain [(0, 20)]).wellFormed = false := by decide
theorem test_ill_formed_scanBoundary : (Instr.scanBoundary [(2, 5), (2, 5)]).wellFormed = false := by decide
theorem test_ill_formed_sincosSample : (Instr.sincosSample 2 8192 0).wellFormed = false := by decide
theorem test_ill_formed_profileStored :
    (Instr.profileStored [true, true, true, true, true]).wellFormed = false := by decide
theorem test_ill_formed_ptpAnnounce : (Instr.ptpAnnounce 0 1 1 37 true [(1, 6), (1, 7)] true).wellFormed = false := by decide
theorem test_ill_formed_ptpForward : (Instr.ptpForward 0 1 1 ⟨16, false⟩ 0 0).wellFormed = false := by decide
theorem test_ill_formed_announceReceiptTimeout :
    (Instr.announceReceiptTimeout 0 [(1, 6), (1, 7)]).wellFormed = false := by decide
theorem test_ill_formed_patrolScrub : (Instr.patrolScrub 0 [(4, 1), (4, 2)]).wellFormed = false := by decide
theorem test_ill_formed_memoryRequest_line :
    (Instr.memoryRequest 0 (.unit .dma) true 32 (some (List.replicate 33 0)) []).wellFormed = false := by decide
theorem test_ill_formed_memoryRequest_errors :
    (Instr.memoryRequest 0 (.unit .dma) true 0 none [(4, 1), (4, 2)]).wellFormed = false := by decide
theorem test_ill_formed_housekeepingRound : (Instr.housekeepingRound [1, 2]).wellFormed = false := by decide
theorem test_ill_formed_bootAuthenticated :
    (Instr.bootAuthenticated [] true 3 [150, 150, 150]).wellFormed = false := by decide
theorem test_ill_formed_packageDecrypted : (Instr.packageDecrypted [5, 5] [] true).wellFormed = false := by decide
theorem test_well_formed_takeover : (Instr.takeover [(3, 2), (4, 1)] { corrected := [3] } [5]).wellFormed = true := by decide

/-! Worked examples of the spec. -/

/-- Table 2.9: the words of the example block. -/
theorem test_table_2_9 :
    [VWord.setMarkSpeed 1000000, .setJumpLimits 1000 5000 2000 60, .setPower 39321, .setFocus 5000,
      .setLaserDelays (-64) 120 40, .setCorner 30 4 52428, .setpoint 3 0x5000 0x3800 0x6800,
      .jump true 4800000 (-1600000), .mark false false false 4880000 (-1600000), .layerEnd 1204].map encodeWord
    = [0x20000000000F4240, 0x240FA04E201F403C, 0x2800000000009999, 0x2C00000000001388, 0x3000FFC000780028,
      0x34001E040000CCCC, 0x3B00500038006800, 0x060124F803E79600, 0x080129DA03E79600, 0xF8000000000004B4] := by
  decide +kernel

/-- The same words read back. -/
theorem test_table_2_9_decode :
    [0x240FA04E201F403C, 0x3B00500038006800, 0x060124F803E79600].map (fun n => (decodeWord n).toOption)
    = [some (.setJumpLimits 1000 5000 2000 60), some (.setpoint 3 0x5000 0x3800 0x6800),
      some (.jump true 4800000 (-1600000))] := by
  decide +kernel

/-- R72: the check value over "123456789". -/
theorem test_crc16 : crc16 [0x31, 0x32, 0x33, 0x34, 0x35, 0x36, 0x37, 0x38, 0x39] = 0x29B1 := by decide +kernel

/-- Chapter 3: jumps of 5 mm and 0.2 mm under the limits of word 1 of Table 2.9. -/
theorem test_jump_updates :
    (jumpPlan ((200000 * 65536) ^ 2) 1000 5000 2000).n = 1450 ∧ (jumpPlan ((8000 * 65536) ^ 2) 1000 5000 2000).n = 308 := by
  decide +kernel

/-- R58: 2 mm at 1 m/s last 4,000 updates. -/
theorem test_mark_updates : markDuration (80000 * 65536) 0 1000000 = 4000 * upd := by decide +kernel

/-- Chapter 3: one point through the map of head 3. -/
theorem test_transform_example :
    transform
      { w := 51200, f := 1000, gx := 12000, gy := 12000, ox := 800, oy := -500, oz := 0,
        map := [(68, 66, 1640, -480, 200), (69, 66, 1704, -512, 200), (70, 66, 1768, -528, 200),
          (71, 66, 1808, -528, 200)] }
      { xc := 3920000, yc := -1920000, rot := 0 } 300 4800000 (-1600000) 5000
    = (722424, 261677, 27263, 0) := by
  decide +kernel

/-- Table 5.4: decay to the arrival time. -/
theorem test_table_5_4 :
    decayed 40 (31918 * 65536 + 10000) (2 * 10002000) = 31816 ∧ decayed 40 (33307 * 65536 + 9994) (2 * 10002000) = 32897 := by
  decide +kernel

/-- Table 9.5: the power linearity of laser 4. -/
theorem test_table_9_5 : powerFit 5 [98000, 197500, 296000, 393000, 489000] = (491, some 35) := by decide +kernel

/-- Chapter 10: steps 0–7 of a 34-step scan. -/
theorem test_pwm_example :
    (List.range 8).map (pwmOn 2200 63) = [true, true, true, false, true, false, true, false] := by decide +kernel

/-- Chapter 10: red strings of petal 2 at 45 °C, and string R0 without its sensor. -/
theorem test_effective_duty :
    (((on .ready).put 0x7802 1 50 |>.put 0x7822 1 4500).modPetal 2 fun t => { t with ntcValid := true }).effective 2 0 0 2000
      = 2200 ∧
    ((on .ready).put 0x7832 1 35389).effective 2 0 0 2000 = 2160 := by
  decide +kernel

/-- Chapter 12: START refused while SAFETY_OK is low; the octets of request and answer. -/
theorem test_start_refused :
    let s : State := (on .armed .operator).put 0x1010 1 17
    let m : Bytes := [0x59, 0x43, 0x03, 0x02, 0x04, 0x00, 0x01, 0x00, 0x11, 0x00, 0x10, 0x00, 0x23, 0x01, 0x00, 0x00,
      0x03, 0x00, 0x09, 0x00, 0x01, 0x20, 0x01, 0x01, 0x00, 0x00, 0x00, 0x00, 0x03, 0x00, 0x00, 0x00]
    (match exec (.writeReq 0 m) s with | .next t => t.sent.head?.map (·.2) | _ => none)
      = some [0x59, 0x43, 0x03, 0x02, 0x05, 0x00, 0x11, 0x00, 0x01, 0x00, 0x0C, 0x00, 0x23, 0x01, 0x00, 0x00,
          0x04, 0x00, 0x08, 0x00, 0x01, 0x20, 0x01, 0x00, 0x06, 0x03, 0x00, 0x00] := by
  decide +kernel

/-- Chapter 13: ρ of +300 ppb. -/
theorem test_rate : rateOf { tick8 := 0, seconds := 0, nanos := 0 } { tick8 := 640000192, seconds := 1, nanos := 0 } = 300 := by
  decide +kernel

/-- Chapter 14: physical address 0x2_3456_7890 under LINE and HASHED. -/
theorem test_map_example :
    mapAddress 0 0x234567890 = (0, 4, 36117) ∧ mapColumn 0 0x234567890 = 632 ∧
    mapAddress 3 0x234567890 = (1, 6, 36117) ∧ mapColumn 3 0x234567890 = 632 := by
  decide +kernel

/-- Chapter 15: the bounds of a 150,000-octet job. -/
theorem test_job_bound : chunkBound 65536 = 65568 ∧ chunkBound 18928 = 18952 ∧ jobBound 150000 65536 = 150088 := by
  decide +kernel

/-- The hypotheses of Obligations.ParameterWords. -/
theorem test_witness_ParameterWords :
    (∃ (s : State) (e : EngineId) (v : _), s.wordAt e (.setMarkSpeed v) = true) ∧
    (∃ (s : State) (e : EngineId) (v : _) (a : _) (j : _) (st : _), s.wordAt e (.setJumpLimits v a j st) = true) ∧
    (∃ (s : State) (e : EngineId) (p : _), s.wordAt e (.setPower p) = true) ∧
    (∃ (s : State) (e : EngineId) (z : _), s.wordAt e (.setFocus z) = true) ∧
    (∃ (s : State) (e : EngineId) (on : _) (off : _) (md : _), s.wordAt e (.setLaserDelays on off md) = true) ∧
    (∃ (s : State) (e : EngineId) (a : _) (d : _) (sc : _), s.wordAt e (.setCorner a d sc) = true) ∧
    (∃ (s : State) (e : EngineId) (m : _) (sp : _) (lo : _) (hi : _), s.wordAt e (.setpoint m sp lo hi) = true) ∧
    (∃ (s : State) (e : EngineId) (p : _) (f : _), s.wordAt e (.label p f) = true ∧ s.goesOn e = true) :=
  ⟨⟨run [.setMarkSpeed 500, .preempt], 3, 500, by decide +kernel⟩,
    ⟨run [.setJumpLimits 5000 200 90 8, .preempt], 3, 5000, 200, 90, 8, by decide +kernel⟩,
    ⟨run [.setPower 40000, .preempt], 3, 40000, by decide +kernel⟩,
    ⟨run [.setFocus (-700), .preempt], 3, (-700 : Int), by decide +kernel⟩,
    ⟨run [.setLaserDelays (-16) 24 30, .preempt], 3, (-16 : Int), (24 : Int), 30, by decide +kernel⟩,
    ⟨run [.setCorner 100 20 30000, .preempt], 3, 100, 20, 30000, by decide +kernel⟩,
    ⟨run [.setpoint 0 900 10 2000, .preempt], 3, 0, 900, 10, 2000, by decide +kernel⟩,
    ⟨run [.label 7 9, .preempt], 3, 7, 9, by decide +kernel⟩⟩

/-- The hypotheses of Obligations.MotionWords. -/
theorem test_witness_MotionWords :
    (∃ (s : State) (e : EngineId) (st : _) (x : _) (y : _), s.wordAt e (.jump st x y) = true ∧ s.engines[e].parkAtPoint = false ∧ unitAhead (s.engines[e].rest.drop 1) = none) ∧
    (∃ (s : State) (e : EngineId) (st : _) (x : _) (y : _) (ws : _), s.wordAt e (.jump st x y) = true ∧ s.engines[e].parkAtPoint = false ∧ s.engines[e].inSegment = false ∧ s.engines[e].claimId = none ∧ s.claimCredit e = true ∧ unitAhead (s.engines[e].rest.drop 1) = some ws) ∧
    (∃ (s : State) (e : EngineId) (nc : _) (sm : _) (am : _) (x : _) (y : _), s.wordAt e (.mark nc sm am x y) = true ∧ s.engines[e].stopInUnit = false ∧ s.engines[e].inSegment = true) ∧
    (∃ (s : State) (e : EngineId) (nc : _) (sm : _) (am : _) (x : _) (y : _), s.wordAt e (.mark nc sm am x y) = true ∧ s.engines[e].stopInUnit = false ∧ s.engines[e].inSegment = false ∧ s.engines[e].claimId = none ∧ s.claimCredit e = true) ∧
    (∃ (s : State) (e : EngineId) (nc : _) (am : _) (x : _) (y : _), s.wordAt e (.mark nc false am x y) = true ∧ s.engines[e].stopInUnit = false ∧ s.engines[e].inSegment = false ∧ s.engines[e].claimId.isSome = true ∧ s.engines[e].claimGranted = true ∧ s.goesOn e = true) ∧
    (∃ (s : State) (e : EngineId) (d : _), s.wordAt e (.dwell false d) = true ∧ s.engines[e].parkAtPoint = false ∧ s.engines[e].inSegment = false ∧ s.engines[e].backTo = none ∧ s.goesOn e = true) ∧
    (∃ (s : State) (e : EngineId) (d : _), s.wordAt e (.dwell true d) = true ∧ s.engines[e].inSegment = true ∧ s.goesOn e = true) ∧
    (∃ (s : State) (e : EngineId) (d : _), s.wordAt e (.dwell true d) = true ∧ s.engines[e].inSegment = false ∧ s.engines[e].claimId = none ∧ s.claimCredit e = true) ∧
    (∃ (s : State) (e : EngineId) (d : _), s.wordAt e (.dwell true d) = true ∧ s.engines[e].inSegment = false ∧ s.engines[e].claimId.isSome = true ∧ s.engines[e].claimGranted = true ∧ s.goesOn e = true) :=
  ⟨⟨run [.jump true 100 (-200), .preempt] fun g => { g with par := { g.par with jumpSpeed := 5000, jumpAccel := 200, jumpJerk := 90 } }, 3, true, (100 : Int), (-200 : Int), by decide +kernel⟩,
    ⟨run [.jump false 100 200, .mark false false false 300 200, .preempt], 3, false, (100 : Int), (200 : Int), [.mark false false false 300 200, .preempt], by decide +kernel⟩,
    ⟨run [.mark false false false 300 200, .preempt] fun g => { g with inSegment := true, par := { g.par with markSpeed := 700 } }, 3, false, false, false, (300 : Int), (200 : Int), by decide +kernel⟩,
    ⟨run [.mark false false false 300 200, .preempt], 3, false, false, false, (300 : Int), (200 : Int), by decide +kernel⟩,
    ⟨run [.mark false false false 300 200, .preempt] fun g => { g with claimId := some 1, claimGranted := true, par := { g.par with markSpeed := 700, power := 9 } }, 3, false, false, (300 : Int), (200 : Int), by decide +kernel⟩,
    ⟨run [.dwell false 500, .preempt], 3, 500, by decide +kernel⟩,
    ⟨run [.dwell true 500, .preempt] fun g => { g with inSegment := true }, 3, 500, by decide +kernel⟩,
    ⟨run [.dwell true 500, .preempt], 3, 500, by decide +kernel⟩,
    ⟨run [.dwell true 500, .preempt] fun g => { g with claimId := some 1, claimGranted := true }, 3, 500, by decide +kernel⟩⟩

/-- The hypotheses of Obligations.SyncWords. -/
theorem test_witness_SyncWords :
    (∃ (s : State) (e : EngineId) (k : TokenId) (c : _), s.wordAt e (.token false k.val c) = true) ∧
    (∃ (s : State) (e : EngineId) (k : TokenId) (n : _), s.wordAt e (.token true k.val n) = true ∧ n ≤ s.tokens[k].seen s.tick ∧ s.goesOn e = true) ∧
    (∃ (s : State) (e : EngineId) (k : TokenId) (n : _), s.wordAt e (.token true k.val n) = true ∧ s.tokens[k].seen s.tick < n) ∧
    (∃ (s : State) (e : EngineId) (k : TokenId) (n : _) (since : _), s.engines[e].wait = .token k.val n since ∧ n ≤ s.tokens[k].seen s.tick) ∧
    (∃ (s : State) (e : EngineId) (inc : _) (k : _) (ov : _) (id : _), s.wordAt e (.seam inc k ov id) = true ∧ s.goesOn e = true) ∧
    (∃ (s : State) (e : EngineId) (k : TokenId) (id : _) (since : _) (h : SeamHalf), s.engines[e].wait = .seam k.val id since ∧ s.engines[e].seam = some h ∧ h.token = k.val ∧ (∀ i : EngineId, s.engines[i].seamDue = []) ∧ s.seamIn k.val h.seamId = true) :=
  ⟨⟨run [.token false 9 0, .preempt], 3, 9, 0, by decide +kernel⟩,
    ⟨{ run [.token true 9 2, .preempt] with tick := 800, tokens := State.reset.tokens.set 9 { count := 2 } }, 3, 9, 2, by decide +kernel⟩,
    ⟨{ run [.token true 9 2, .preempt] with tick := 800, tokens := State.reset.tokens.set 9 { count := 1 } }, 3, 9, 2, by decide +kernel⟩,
    ⟨{ run [.token true 9 2, .preempt] (fun g => { g with st := .yielding, wait := .token 9 2 100 }) with tick := 800, tokens := State.reset.tokens.set 9 { count := 2, changed := 400 } }, 3, 9, 2, 100, by decide +kernel⟩,
    ⟨run [.seam true 9 400 77, .preempt], 3, true, 9, 400, 77, by decide +kernel⟩,
    ⟨{ run [.mark false true false 5 6, .preempt] (fun g => { g with st := .yielding, wait := .seam 9 77 100, seam := some { incoming := true, token := 9, overlap := 400, seamId := 77 } }) with tick := 800, tokens := State.reset.tokens.set 9 { mailbox := [(77, 5, 400, 600)], changed := 600 } }, 3, 9, 77, 100, { incoming := true, token := 9, overlap := 400, seamId := 77 }, by decide +kernel⟩⟩

/-- The hypotheses of Obligations.GroupWords. -/
theorem test_witness_GroupWords :
    (∃ (s : State) (e : EngineId) (id : _), s.wordAt e (.group true id) = true ∧ s.engines[e].inSegment = false ∧ s.engines[e].parkAtPoint = false) ∧
    (∃ (s : State) (e : EngineId) (id : _), s.wordAt e (.group false id) = true ∧ s.engines[e].inSegment = false ∧ s.engines[e].parkAtPoint = false) ∧
    (∃ (s : State) (e : EngineId), s.wordAt e .preempt = true ∧ s.engines[e].inSegment = true ∧ s.engines[e].parkAtPoint = false ∧ s.goesOn e = true) ∧
    (∃ (s : State) (e : EngineId), s.wordAt e .preempt = true ∧ s.engines[e].inSegment = false ∧ s.engines[e].parkAtPoint = false ∧ s.goesOn e = true) ∧
    (∃ (s : State) (e : EngineId), s.wordAt e .preempt = true ∧ s.engines[e].parkAtPoint = true) :=
  ⟨⟨run [.group true 6, .jump false 1 2, .mark false false false 5 6, .jump false 9 9, .mark false false false 12 6, .group false 6], 3, 6, by decide +kernel⟩,
    ⟨run [.group false 6, .preempt], 3, 6, by decide +kernel⟩,
    ⟨run [.preempt, .preempt] fun g => { g with inSegment := true }, 3, by decide +kernel⟩,
    ⟨run [.preempt, .preempt], 3, by decide +kernel⟩,
    ⟨run [.preempt, .preempt] fun g => { g with parkAtPoint := true, ctx := some 1 }, 3, by decide +kernel⟩⟩

/-- The hypotheses of Obligations.EndingWords. -/
theorem test_witness_EndingWords :
    (∃ (s : State) (e : EngineId) (c : CtxId) (n : _), s.engines[e].inSegment = false ∧ s.atInstant e = true ∧ s.engines[e].buf.head?.map (·.stolen) = some false ∧ s.engines[e].ctx = some c ∧ (assocGet c.val s.contexts).isSome = true ∧ keysFrom 0 s.contexts = true ∧ s.wordAt e (.layerEnd n) = true ∧ s.holdLayerEnd e = none) ∧
    (∃ (s : State) (e : EngineId) (c : CtxId), s.engines[e].inSegment = false ∧ s.atInstant e = true ∧ s.engines[e].buf.head?.map (·.stolen) = some false ∧ s.engines[e].ctx = some c ∧ (assocGet c.val s.contexts).isSome = true ∧ keysFrom 0 s.contexts = true ∧ s.wordAt e .endWord = true ∧ s.holdLayerEnd e = none) ∧
    (∃ (s : State) (e : EngineId) (b : Block) (n : _), s.engines[e].inSegment = false ∧ s.atInstant e = true ∧ s.engines[e].buf.head? = some b ∧ b.stolen = true ∧ (assocGet b.ctx s.contexts).isSome = true ∧ keysFrom 0 s.contexts = true ∧ s.wordAt e (.layerEnd n) = true) ∧
    (∃ (s : State) (e : EngineId) (b : Block), s.engines[e].inSegment = false ∧ s.atInstant e = true ∧ s.engines[e].buf.head? = some b ∧ b.stolen = true ∧ (assocGet b.ctx s.contexts).isSome = true ∧ keysFrom 0 s.contexts = true ∧ s.wordAt e .endWord = true) :=
  ⟨⟨{ run [.layerEnd 4] (fun g => { g with ctx := some 2 }) with contexts := [(2, { st := .running, engine := 3 })] }, 3, 2, 4, by decide +kernel⟩,
    ⟨{ run [.endWord] (fun g => { g with ctx := some 2 }) with contexts := [(2, { st := .running, engine := 3 })] }, 3, 2, by decide +kernel⟩,
    ⟨{ run [.layerEnd 4] (fun g => { g with ctx := some 2, buf := [{ ctx := 4, stolen := true, words := [.layerEnd 4] }] }) with contexts := [(2, { st := .running, engine := 3 }), (4, { st := .preempted, engine := 5 })] }, 3, { ctx := 4, stolen := true, words := [.layerEnd 4] }, 4, by decide +kernel⟩,
    ⟨{ run [.endWord] (fun g => { g with ctx := some 2, buf := [{ ctx := 4, stolen := true, words := [.endWord] }] }) with contexts := [(2, { st := .running, engine := 3 }), (4, { st := .preempted, engine := 5 })] }, 3, { ctx := 4, stolen := true, words := [.endWord] }, by decide +kernel⟩⟩

/-- The hypotheses of Obligations.UpdateGrid. -/
theorem test_witness_UpdateGrid :
    (∃ (s : State), s.tick % 40 = 0) ∧
    (∃ (s : State), s.tick % 40 ≠ 0) ∧
    (∃ (s : State) (p : _) (e : _), s.engineOf p = some e ∧ s.lpwrRuns p = true ∧ s.lasers[p].slotNo < s.slotNow p) :=
  ⟨⟨{ State.reset with tick := 4000 }, by decide +kernel⟩,
    ⟨{ State.reset with tick := 4001 }, by decide +kernel⟩,
    ⟨{ State.reset with tick := 4000, modState := .service }, 2, 2, by decide +kernel⟩⟩

/-- The hypotheses of Obligations.LinkRows. -/
theorem test_witness_LinkRows :
    (∃ (s : State) (p : LaserId), s.lasers[p].link ≠ .off ∧ s.lasers[p].link ≠ .idle) ∧
    (∃ (s : State) (p : LaserId) (f : BitVec 160), s.lasers[p].link ≠ .off ∧ s.lasers[p].link ≠ .idle ∧ crcOk f.toNat = true) ∧
    (∃ (s : State) (p : LaserId), linksRun s.modState = true ∧ s.lasers[p].link = .off ∧ s.nat (0x4008 + 0x100 * p.val) 1 = 1) ∧
    (∃ (s : State) (p : LaserId) (n : _), s.lasers[p].link = .idle ∧ s.lasers[p].linkTimer.isSome = true ∧ 256 ≤ n) ∧
    (∃ (s : State) (p : LaserId), s.lasers[p].link = .align ∧ 64 ≤ s.lasers[p].upstreamGood) ∧
    (∃ (s : State) (p : LaserId), s.lasers[p].link = .identify ∧ s.lasers[p].mismatch = false ∧ 8 ≤ s.lasers[p].regs.length ∧ s.linkMatches p = true) ∧
    (∃ (s : State) (p : LaserId), s.lasers[p].link = .identify ∧ s.lasers[p].mismatch = false ∧ 8 ≤ s.lasers[p].regs.length ∧ s.linkMatches p = false) ∧
    (∃ (s : State) (p : LaserId) (d : _), s.lasers[p].linkTimer = some d ∧ d ≤ s.tick) ∧
    (∃ (s : State) (p : LaserId) (d : _), s.lasers[p].retryTimer = some d ∧ d ≤ s.tick ∧ linksRun s.modState = true) ∧
    (∃ (s : State) (p : LaserId), s.lasers[p].link = .up ∧ (4 ≤ s.lasers[p].upstreamBad ∨ 4 ≤ s.lasers[p].rxerrRun)) ∧
    (∃ (s : State) (p : LaserId), 2 ≤ s.lasers[p].hfaultRun) ∧
    (∃ (s : State) (q : Sess) (p : LaserId), s.admits q (0x4008 + 0x100 * p.val) 1 0 = true) ∧
    (∃ (s : State) (q : Sess) (p : LaserId), s.admits q (0x4008 + 0x100 * p.val) 1 1 = true ∧ s.nat (0x4008 + 0x100 * p.val) 1 = 0 ∧ linksRun s.modState = true) ∧
    (∃ (s : State) (q : Sess) (p : LaserId) (v : Byte), 1 < v.toNat ∧ s.admits q (0x4008 + 0x100 * p.val) 1 v.toNat = true) ∧
    (∃ (s : State) (q : Sess) (p : LaserId) (addr : BitVec 14), s.admits q (0x400A + 0x100 * p.val) 1 ((2 ^ 30 + addr.toNat * 2 ^ 16 : Nat) : Int) = true ∧ s.lasers[p].auxBusy = none ∧ s.lasers[p].link = .up) ∧
    (∃ (s : State) (q : Sess) (p : LaserId) (addr : BitVec 14) (d : BitVec 16), s.admits q (0x400A + 0x100 * p.val) 1 ((2 ^ 31 + addr.toNat * 2 ^ 16 + d.toNat : Nat) : Int) = true ∧ s.lasers[p].auxBusy = none ∧ s.lasers[p].link = .up) ∧
    (∃ (s : State) (q : Sess) (p : LaserId) (addr : BitVec 14), s.admits q (0x400A + 0x100 * p.val) 1 ((2 ^ 30 + addr.toNat * 2 ^ 16 : Nat) : Int) = true ∧ s.lasers[p].auxBusy.isSome = true) ∧
    (∃ (s : State) (p : LaserId), s.lasers[p].auxBusy.isSome = true ∧ s.lasers[p].link ≠ .identify) ∧
    (∃ (s : State) (p : LaserId) (a : _) (w : _) (d : _), s.lasers[p].auxBusy = some (a, w, d) ∧ d ≤ s.tick ∧ s.lasers[p].link ≠ .identify) ∧
    (∃ (s : State) (p : LaserId), s.lasers[p].link = .up ∧ s.lasers[p].tempStale = false ∧ s.lasers[p].tempAt + 80000000 ≤ s.tick) :=
  ⟨⟨las fun l => { l with link := .align }, 2, by decide +kernel⟩,
    ⟨las fun l => { l with link := .up }, 2, BitVec.ofNat 160 (withCrc (2 ^ 72 * 0xFFFFFF + 2 ^ 96 * 77)), by decide +kernel⟩,
    ⟨(on .ready).put 0x4208 1 1, 2, by decide +kernel⟩,
    ⟨las fun l => { l with link := .idle, linkTimer := some 9 }, 2, 256, by decide +kernel⟩,
    ⟨las fun l => { l with link := .align, upstreamGood := 64 }, 2, by decide +kernel⟩,
    ⟨{ (las fun l => { l with link := .identify, regs := [1, 0, 0, 0, 0, 0, 700, 9], roundTrip := 600 }) with records := State.reset.records.set 2 (some { w := 700, f := 9 }) }, 2, by decide +kernel⟩,
    ⟨{ (las fun l => { l with link := .identify, regs := [1, 0, 0, 0, 0, 0, 700, 8], roundTrip := 600 }) with records := State.reset.records.set 2 (some { w := 700, f := 9 }) }, 2, by decide +kernel⟩,
    ⟨{ (las fun l => { l with link := .align, linkTimer := some 90 }) with tick := 90 }, 2, 90, by decide +kernel⟩,
    ⟨{ (las fun l => { l with link := .idle, retryTimer := some 90 }) with tick := 90 }, 2, 90, by decide +kernel⟩,
    ⟨las fun l => { l with link := .up, upstreamBad := 4, available := true }, 2, by decide +kernel⟩,
    ⟨las fun l => { l with link := .up, hfaultRun := 2, available := true }, 2, by decide +kernel⟩,
    ⟨las fun l => { l with link := .up, available := true }, 0, 2, by decide +kernel⟩,
    ⟨(on .ready).put 0x4208 1 0, 0, 2, by decide +kernel⟩,
    ⟨on .ready, 0, 2, 2, by decide +kernel⟩,
    ⟨las fun l => { l with link := .up }, 0, 2, 16383, by decide +kernel⟩,
    ⟨las fun l => { l with link := .up }, 0, 2, 16383, 65535, by decide +kernel⟩,
    ⟨las fun l => { l with link := .up, auxBusy := some (3, false, 99) }, 0, 2, 16383, by decide +kernel⟩,
    ⟨las fun l => { l with link := .up, auxBusy := some (3, false, 99) }, 2, by decide +kernel⟩,
    ⟨{ (las fun l => { l with link := .up, auxBusy := some (3, false, 99) }) with tick := 99 }, 2, 3, false, 99, by decide +kernel⟩,
    ⟨{ (las fun l => { l with link := .up, tempAt := 5 }) with tick := 80000005 }, 2, by decide +kernel⟩⟩

/-- The hypotheses of Obligations.LaserRows. -/
theorem test_witness_LaserRows :
    (∃ (r : _) (a : _), (r && a) = false) ∧
    (∃ (s : State) (p : LaserId) (n : _), s.lasers[p].available = false ∧ s.lasers[p].link = .up ∧ s.lasers[p].withdrawn = false ∧ s.lasers[p].emitMismatch < 3 ∧ 800000 ≤ n ∧ s.lasers[p].clearSince + 800000 ≤ s.tick) ∧
    (∃ (s : State) (p : LaserId), s.lasers[p].emitMismatch < 2) ∧
    (∃ (s : State) (p : LaserId), s.lasers[p].emitMismatch = 2) ∧
    (∃ (s : State) (n : _), 8 ≤ n ∧ s.safetyOk = true ∧ s.alone 3 = true ∧ s.supply.resetHeld = none) ∧
    (∃ (n : _), 800000 ≤ n) :=
  ⟨⟨true, false, by decide +kernel⟩,
    ⟨{ (las fun l => { l with link := .up, clearSince := 10 }) with tick := 800010 }, 2, 800000, by decide +kernel⟩,
    ⟨las fun l => { l with emitMismatch := 1, available := true }, 2, by decide +kernel⟩,
    ⟨las fun l => { l with emitMismatch := 2, available := true }, 2, by decide +kernel⟩,
    ⟨{ on .building with safetyOk := true }, 8, by decide +kernel⟩,
    ⟨800000, by decide +kernel⟩⟩

/-- The hypotheses of Obligations.StallRows. -/
theorem test_witness_StallRows :
    (∃ (s : State) (e : EngineId) (d : _), s.engines[e].readyTimer = some d ∧ d ≤ s.tick ∧ s.eff e = .armed ∧ s.laserReady e = false) ∧
    (∃ (s : State) (e : EngineId) (d : _), s.engines[e].forcedTimer = some d ∧ d ≤ s.tick ∧ s.eff e = .stalled ∧ s.engines[e].stallLaser = true ∧ s.lastInLayer e = true ∧ s.laserReady e = false) ∧
    (∃ (s : State) (e : EngineId), s.eff e = .running ∧ s.engines[e].buf = [] ∧ s.engines[e].planEnd ≤ upd * (s.tick / 40) ∧ (s.engines[e].ctx.isSome = true ∨ s.stolenWaiting e = true)) ∧
    (∃ (s : State) (e : EngineId), s.eff e = .running ∧ s.engines[e].buf = [] ∧ s.engines[e].planEnd ≤ upd * (s.tick / 40) ∧ s.engines[e].ctx = none ∧ s.stolenWaiting e = false ∧ s.bestContext e = none ∧ s.heldUp e = true) ∧
    (∃ (s : State) (e : EngineId), s.eff e = .stalled ∧ s.engines[e].noWork = false ∧ s.laserReady e = true) ∧
    (∃ (s : State) (e : EngineId) (k : _) (n : _) (since : _), s.engines[e].wait = .token k n since ∧ k < 64 ∧ since + 80000 * s.armNat 0x2803 3 ≤ s.tick ∧ (∀ h : k < 64, s.tokens[k].seen s.tick < n)) ∧
    (∃ (s : State), s.modState = .building ∧ (∀ i : EngineId, s.engines[i].st ≠ .standin ∧ s.eff i ≠ .running ∧ s.eff i ≠ .yielding ∧ s.eff i ≠ .stalled) ∧ (∃ r ∈ s.remainders, r.token.isSome = true ∨ r.seamWait.isSome = true) ∧ (∀ r ∈ s.remainders, r.token.isSome = true ∨ r.seamWait.isSome = true)) ∧
    (∃ (s : State), (∃ r ∈ s.remainders, r.token = none ∧ r.seamWait = none)) :=
  ⟨⟨{ eng (fun g => { g with st := .armed, readyTimer := some 40 }) with tick := 40, modState := .building }, 3, 40, by decide +kernel⟩,
    ⟨{ eng (fun g => { g with st := .stalled, stallLaser := true, forcedTimer := some 40, layerDone := false, ctx := some 4 }) with tick := 40, modState := .building, contexts := [(4, { st := .running, engine := 3 })] }, 3, 40, by decide +kernel⟩,
    ⟨{ eng (fun g => { g with st := .running, ctx := some 4 }) with tick := 40, modState := .building }, 3, by decide +kernel⟩,
    ⟨{ eng (fun g => { g with st := .running }) with tick := 40, modState := .building, remainders := [{ engine := 3 }] }, 3, by decide +kernel⟩,
    ⟨{ (eng (fun g => { g with st := .stalled, buf := [{}] })).modLaser 3 fun l => { l with available := true } with tick := 40 }, 3, by decide +kernel⟩,
    ⟨{ eng (fun g => { g with st := .yielding, ctx := some 4, wait := .token 7 3 10 }) with tick := 400000010, contexts := [(4, { st := .running, engine := 3 })] }, 3, 7, 3, 10, by decide +kernel⟩,
    ⟨{ State.reset with modState := .building, remainders := [{ engine := 3, token := some (7, 3) }] }, by decide +kernel⟩,
    ⟨{ State.reset with modState := .building, remainders := [{ engine := 3 }] }, by decide +kernel⟩⟩

/-- The hypotheses of Obligations.ArbiterRows. -/
theorem test_witness_ArbiterRows :
    (∃ (s : State) (e : EngineId) (c : _), s.nextDecision = some c ∧ c.engine = e.val ∧ c.held = false ∧ s.decidedAt ≠ some s.tick ∧ s.engines[e].claimId = some c.id ∧ s.engines[e].wait ≠ .credit ∧ s.blockers c = []) ∧
    (∃ (s : State) (e : EngineId) (c : _), s.nextDecision = some c ∧ c.engine = e.val ∧ c.held = false ∧ s.decidedAt ≠ some s.tick ∧ s.engines[e].claimId = some c.id ∧ s.engines[e].wait ≠ .credit ∧ s.blockers c ≠ [] ∧ s.engines[e].group = none) ∧
    (∃ (s : State) (e : EngineId), s.decidedAt = some s.tick ∧ s.engines[e].wait ≠ .credit) ∧
    (∃ (s : State) (e : EngineId) (n : _) (c : _) (since : _), s.engines[e].claimId = some n ∧ s.claim? n = some c ∧ s.engines[e].wait = .claim since ∧ s.eff e = .yielding ∧ since + 5120 ≤ s.tick ∧ s.blockers c = []) ∧
    (∃ (s : State) (e : EngineId) (n : _) (c : _) (since : _), s.engines[e].claimId = some n ∧ s.claim? n = some c ∧ s.engines[e].wait = .claim since ∧ s.eff e = .yielding ∧ since + 5120 ≤ s.tick ∧ s.blockers c ≠ [] ∧ (∀ b ∈ s.blockers c, outranks c b = false) ∧ s.remainders = [] ∧ s.engines[e].buf ≠ []) ∧
    (∃ (s : State) (e : EngineId), (s.eff e = .running ∨ s.eff e = .parked) ∧ (∀ d, s.engines[e].stealAt = some d → d ≤ s.tick) ∧ s.bufferedTime e < s.armNat 0x2802 1) :=
  ⟨⟨{ eng (fun g => { g with st := .yielding, claimId := some 8, wait := .claim 10, buf := [{ words := [.mark false false false 5 6] }] }) with tick := 13, claims := [{ id := 8, engine := 3, posted := 10, dueAt := some 13, rect := { x0 := 0, y0 := 0, x1 := 50, y1 := 50 } }] }, 3, { id := 8, engine := 3, posted := 10, dueAt := some 13, rect := { x0 := 0, y0 := 0, x1 := 50, y1 := 50 } }, by decide +kernel⟩,
    ⟨{ eng (fun g => { g with st := .running, claimId := some 8, buf := [{ words := [.mark false false false 5 6] }] }) with tick := 13, claims := [{ id := 8, engine := 3, posted := 10, dueAt := some 13, rect := { x0 := 0, y0 := 0, x1 := 50, y1 := 50 } }, { id := 7, engine := 5, granted := true, rect := { x0 := 0, y0 := 0, x1 := 50, y1 := 50 } }] }, 3, { id := 8, engine := 3, posted := 10, dueAt := some 13, rect := { x0 := 0, y0 := 0, x1 := 50, y1 := 50 } }, by decide +kernel⟩,
    ⟨{ State.reset with tick := 5, decidedAt := some 5 }, 3, by decide +kernel⟩,
    ⟨{ eng (fun g => { g with st := .yielding, claimId := some 8, wait := .claim 10, buf := [{ words := [.mark false false false 5 6] }] }) with tick := 5130, claims := [{ id := 8, engine := 3, posted := 10, dueAt := some 13, rect := { x0 := 0, y0 := 0, x1 := 50, y1 := 50 } }] }, 3, 8, { id := 8, engine := 3, posted := 10, dueAt := some 13, rect := { x0 := 0, y0 := 0, x1 := 50, y1 := 50 } }, 10, by decide +kernel⟩,
    ⟨{ eng (fun g => { g with st := .yielding, ctx := some 4, claimId := some 8, wait := .claim 10, buf := [{ ctx := 4, words := [.mark false false false 5 6] }] }) with tick := 5130, claims := [{ id := 8, engine := 3, posted := 10, dueAt := some 13, rect := { x0 := 0, y0 := 0, x1 := 50, y1 := 50 } }, { id := 7, engine := 5, granted := true, rect := { x0 := 0, y0 := 0, x1 := 50, y1 := 50 } }], contexts := [(4, { st := .running, engine := 3 })] }, 3, 8, { id := 8, engine := 3, posted := 10, dueAt := some 13, rect := { x0 := 0, y0 := 0, x1 := 50, y1 := 50 } }, 10, by decide +kernel⟩,
    ⟨{ eng (fun g => { g with st := .parked }) with armDict := [(entryKey 0x2802 1, 100)] }, 3, by decide +kernel, (by intro d h; cases (show (none : Option Nat) = some d from h)), by decide +kernel⟩⟩

/-- The hypotheses of Obligations.ContextRows. -/
theorem test_witness_ContextRows :
    (∃ (s : State) (e : _) (c : CtxId) (y : _) (n : _) (x : _), keysFrom 0 s.contexts = true ∧ s.engines[e].ctx = some c ∧ assocGet c.val s.contexts = some y ∧ s.bestContext e = some (n, x) ∧ n < 512 ∧ y.priority < x.priority ∧ x.spilled = false ∧ s.eff e = .running ∧ s.atPreemptionPoint e = true ∧ (freeSlot s.contexts).isSome = true ∧ reserveInUse s.contexts e = false) ∧
    (∃ (s : State) (e : _) (n : _) (x : _), keysFrom 0 s.contexts = true ∧ s.modState = .building ∧ s.engines[e].ctx = none ∧ s.engines[e].buf = [] ∧ s.eff e = .parked ∧ s.bestContext e = some (n, x) ∧ n < 512 ∧ x.spilled = false ∧ reserveInUse s.contexts e = false) ∧
    (∃ (s : State) (n : _) (c : _) (p : _) (s' : _), keysFrom 0 s.contexts = true ∧ freeSlots s.contexts < 16 ∧ assocGet n s.contexts = some c ∧ (c.st = .preempted ∨ c.st = .blocked) ∧ c.saveSlot < 96 ∧ c.spilled = false ∧ c.area.isSome = true ∧ (∀ y ∈ s.contexts, y.1 ≠ n → (y.2.st = .preempted ∨ y.2.st = .blocked) → c.stopTick < y.2.stopTick) ∧ s.faultHeld .spill 255 c.space (s.spillAddress n c) = false ∧ s.translate .spill c.space (s.spillAddress n c) true = (s', .ok p)) ∧
    (∃ (s : State) (n : CtxId) (c : _) (p : _) (s' : _) (a : _), keysFrom 0 s.contexts = true ∧ assocGet n.val s.contexts = some c ∧ c.st = .blocked ∧ c.blockedCause = 3 ∧ c.spilled = true ∧ s.faultHeld .spill 255 c.space c.spillAddress = false ∧ s.translate .spill c.space c.spillAddress false = (s', .ok p) ∧ (s'.readPhys .spill p 256).2.bind parseArea = some a) ∧
    (∃ (s : State) (n : CtxId) (c : _), keysFrom 0 s.contexts = true ∧ assocGet n.val s.contexts = some c ∧ c.st = .preempted ∧ c.area.isSome = true) :=
  ⟨⟨{ eng (fun g => { g with st := .running, ctx := some 4, buf := [{ ctx := 4, words := [.preempt] }] }) with contexts := [(4, { st := .running, engine := 3, priority := 1 }), (6, { st := .ready, homeEngine := 3, priority := 2 })] }, 3, 4, { st := .running, engine := 3, priority := 1 }, 6, { st := .ready, homeEngine := 3, priority := 2 }, by decide +kernel⟩,
    ⟨{ eng (fun g => { g with st := .parked }) with modState := .building, contexts := [(6, { st := .ready, homeEngine := 3, priority := 2 })] }, 3, 6, { st := .ready, homeEngine := 3, priority := 2 }, by decide +kernel⟩,
    ⟨{ State.reset with tlb := [page .spill 0 7], contexts := (2, { st := .preempted, space := 5, saveSlot := 80, area := some {} }) :: (List.range 81).map fun i => (i + 10, { st := .loaded, saveSlot := i }) }, 2, { st := .preempted, space := 5, saveSlot := 80, area := some {} }, 7 * 65536 + 512, (({ State.reset with tlb := [page .spill 0 7], contexts := (2, { st := .preempted, space := 5, saveSlot := 80, area := some {} }) :: (List.range 81).map fun i => (i + 10, { st := .loaded, saveSlot := i }) } : State).translate .spill 5 512 true).1, by decide +kernel, by decide +kernel, by decide +kernel, by decide +kernel, by decide +kernel, by decide +kernel, by decide +kernel, by decide +kernel, by decide +kernel, of_pair (by decide +kernel)⟩,
    ⟨{ State.reset with tlb := [page .spill 0 7], mem := memWriteN [] (7 * 65536 + 512) (areaBytes { posX := 77 }), dram := Vector.replicate 2 { trained := 1 }, modState := .building, contexts := [(2, { st := .blocked, blockedCause := 3, spilled := true, space := 5, spillAddress := 512, before := .preempted })] }, 2, { st := .blocked, blockedCause := 3, spilled := true, space := 5, spillAddress := 512, before := .preempted }, 7 * 65536 + 512, (({ State.reset with tlb := [page .spill 0 7], mem := memWriteN [] (7 * 65536 + 512) (areaBytes { posX := 77 }), dram := Vector.replicate 2 { trained := 1 }, modState := .building, contexts := [(2, { st := .blocked, blockedCause := 3, spilled := true, space := 5, spillAddress := 512, before := .preempted })] } : State).translate .spill 5 512 false).1, { posX := 77 }, by decide +kernel, by decide +kernel, by decide +kernel, by decide +kernel, by decide +kernel, by decide +kernel, of_pair (by decide +kernel), by decide +kernel⟩,
    ⟨{ State.reset with contexts := [(2, { st := .preempted, space := 5, saveSlot := 80, area := some {} })] }, 2, { st := .preempted, space := 5, saveSlot := 80, area := some {} }, by decide +kernel⟩⟩

/-- The hypotheses of Obligations.BlockRows. -/
theorem test_witness_BlockRows :
    (∃ (s : State) (e : _) (x : _) (s' : _) (b : _), s.inService e = true ∧ s.heldFetch e = none ∧ s.nextFetch e = some x ∧ x.held = false ∧ s.fetchCredit e = true ∧ s.readBlock x.space x.address = (s', .ok b)) ∧
    (∃ (s : State) (e : _) (x : _) (s' : _) (va : _) (l : _) (c : _), s.inService e = true ∧ s.heldFetch e = none ∧ s.nextFetch e = some x ∧ x.held = false ∧ s.fetchCredit e = true ∧ s.readBlock x.space x.address = (s', .fault va l c) ∧ s'.faultHeld .fetch e.val x.space va = false ∧ s'.faults.length < 64) ∧
    (∃ (s : State) (i : Fin 2) (e : _) (x : _) (h : _) (payload : _) (rest : _) (ws : _), s.inflaters[i].inService = true ∧ s.fetched = (e, x, h, payload) :: rest ∧ s.slotsUsed e + s.freedOf 2 e.val < 4 ∧ s.blockWanted e x = true ∧ s.inRun e x.ctx x.stolen = true ∧ (s.engines[e].buf.any fun b => b.keptFor x.ctx x.listIndex x.stolen) = false ∧ x.held = false ∧ x.attempt = 0 ∧ x.stolen = false ∧ isTemplate h = false ∧ s.maySee e h = true ∧ s.checkPayload h x.lastOfList payload = .ok ws ∧ ws ≠ []) ∧
    (∃ (s : State) (i : Fin 2) (e : _) (x : _) (h : _) (payload : _) (rest : _) (off : _) (code : _), s.inflaters[i].inService = true ∧ s.fetched = (e, x, h, payload) :: rest ∧ s.slotsUsed e + s.freedOf 2 e.val < 4 ∧ s.blockWanted e x = true ∧ x.held = false ∧ x.attempt = 0 ∧ payload ≠ [] ∧ code ≠ 0x10 ∧ s.checkPayload h x.lastOfList payload = .error (off, code)) :=
  ⟨⟨{ eng (fun g => { g with stolenQ := [{ ctx := 4, address := 65536, space := 5 }] }) with tlb := [page .fetch 1 7], mem := memWriteN [] (7 * 65536) (let h := leBytes 28 (8 * 2 ^ 32); h ++ leBytes 4 (crc32c h)), dram := Vector.replicate 2 { trained := 1 }, modState := .building }, 3, { ctx := 4, address := 65536, space := 5 }, (({ eng (fun g => { g with stolenQ := [{ ctx := 4, address := 65536, space := 5 }] }) with tlb := [page .fetch 1 7], mem := memWriteN [] (7 * 65536) (let h := leBytes 28 (8 * 2 ^ 32); h ++ leBytes 4 (crc32c h)), dram := Vector.replicate 2 { trained := 1 }, modState := .building } : State).readBlock 5 65536).1, let h := leBytes 28 (8 * 2 ^ 32); h ++ leBytes 4 (crc32c h), by decide +kernel, by decide +kernel, by decide +kernel, by decide +kernel, by decide +kernel, of_read (by decide +kernel)⟩,
    ⟨{ eng (fun g => { g with stolenQ := [{ ctx := 4, address := 65536, space := 5 }] }) with modState := .building, dram := Vector.replicate 2 { trained := 1 } }, 3, { ctx := 4, address := 65536, space := 5 }, (({ eng (fun g => { g with stolenQ := [{ ctx := 4, address := 65536, space := 5 }] }) with modState := .building, dram := Vector.replicate 2 { trained := 1 } } : State).readBlock 5 65536).1, 65536, 1, 1, by decide +kernel, by decide +kernel, by decide +kernel, by decide +kernel, by decide +kernel, of_read (by decide +kernel), by decide +kernel, by decide +kernel⟩,
    ⟨{ eng (fun g => { g with ctx := some 4 }) with modState := .building, armDict := [(entryKey 0x2813 5, 1000), (entryKey 0x2813 7, 1000)], contexts := [(4, { st := .running, engine := 3 })], fetched := [(3, { ctx := 4, address := 65536 }, { headerOf sample with eligibility := 8 }, storedForm (wordBytes sample))] }, 0, 3, { ctx := 4, address := 65536 }, { headerOf sample with eligibility := 8 }, storedForm (wordBytes sample), [], sample, by decide +kernel, by decide +kernel, by decide +kernel, by decide +kernel, by decide +kernel, by decide +kernel, by decide +kernel, by decide +kernel, by decide +kernel, by decide +kernel, by decide +kernel, of_ok (by decide +kernel), by decide +kernel⟩,
    ⟨{ eng (fun g => { g with ctx := some 4 }) with modState := .building, contexts := [(4, { st := .running, engine := 3 })], fetched := [(3, { ctx := 4, address := 65536 }, headerOf (sample.drop 1), storedForm (wordBytes (sample.drop 1)))] }, 0, 3, { ctx := 4, address := 65536 }, headerOf (sample.drop 1), storedForm (wordBytes (sample.drop 1)), [], 6, 0x15, by decide +kernel, by decide +kernel, by decide +kernel, by decide +kernel, by decide +kernel, by decide +kernel, by decide +kernel, by decide +kernel, of_error (by decide +kernel)⟩⟩

/-- The hypotheses of Obligations.SpareRows. -/
theorem test_witness_SpareRows :
    (∃ (s : State) (e : EngineId) (k : Nat), e ≠ 12 ∧ s.engines[e].routed.map (·.val) = some e.val ∧ s.engines[e].st ≠ .fault ∧ s.engines[e].st ≠ .trim ∧ s.spareFree = true ∧ k = ((8 * (s.tick : Int) - s.gateAlign e) / 320).toNat ∧ (s.eff e = .running ∨ s.eff e = .yielding → (newestCheckpoint s.engines[e].checkpoints k).isSome = true)) ∧
    (∃ (s : State) (e : EngineId), e ≠ 12 ∧ s.engines[e].routed.isSome = true ∧ s.engines[e].st ≠ .fault ∧ s.engines[e].st ≠ .trim ∧ s.engines[e].st ≠ .spare ∧ s.spareFree = false) ∧
    (∃ (s : State), s.modState = .building ∧ s.supply.resetHeld = none) ∧
    (∃ (s : State), s.spare.pathFault = false) ∧
    (∃ (s : State) (d : _) (n : EngineId) (p : _), s.spare.takeoverAt = some d ∧ d ≤ s.tick ∧ s.spare.standinFor = some n ∧ n ≠ 12 ∧ s.engines[n].routed = some p) ∧
    (∃ (s : State) (q : _) (v : Byte), s.admits q 0x3C10 5 v.toNat = true ∧ s.engines[(12 : EngineId)].st = .spare ∧ s.spare.takeoverAt = none ∧ s.spare.trimPending = none ∧ s.spare.trimming = none) ∧
    (∃ (s : State) (q : _) (v : Byte), v.toNat < 13 ∧ s.admits q 0x3C10 5 v.toNat = true ∧ s.engines[(12 : EngineId)].st ≠ .spare) ∧
    (∃ (s : State) (q : _), s.admits q 0x3C10 5 255 = true) ∧
    (∃ (s : State) (n : EngineId), s.spare.trimPending = some n ∧ n ≠ 12 ∧ s.engines[(12 : EngineId)].st = .spare ∧ s.spare.takeoverAt = none ∧ (s.engines[n].st = .idle ∨ s.engines[n].st = .armed) ∧ (s.cal.running && s.cal.laser == n.val) = false) ∧
    (∃ (s : State) (n : EngineId), s.spare.trimming = some n ∧ s.engines[n].st = .trim ∧ n ≠ 12 ∧ s.spare.standinFor ≠ some n) ∧
    (∃ (s : State) (n : EngineId) (p : _), s.spare.standinFor = some n ∧ n ≠ 12 ∧ s.engines[(12 : EngineId)].routed = some p ∧ s.spare.forTrim = true ∧ s.spare.trimDone = true ∧ s.engines[(12 : EngineId)].st = .standin ∧ s.engines[n].st = .trim ∧ (s.spare.subState = .armed ∨ s.spare.subState = .idle)) :=
  ⟨⟨{ eng (fun g => { g with st := .idle }) with tick := 8000, modState := .building, contexts := [(4, { st := .loaded, homeEngine := 3 })] }, 3, ((8 * ((8000 : Nat) : Int) - (eng id).gateAlign 3) / 320).toNat, by decide +kernel⟩,
    ⟨{ eng (fun g => { g with st := .idle }) with engines := State.reset.engines.set 12 { st := .standin, routed := some 1 } }, 3, by decide +kernel⟩,
    ⟨on .building, by decide +kernel⟩,
    ⟨on .ready, by decide +kernel⟩,
    ⟨{ State.reset with tick := 80, spare := { takeoverAt := some 80, standinFor := some 3, failTick := 15 } }, 80, 3, 3, by decide +kernel⟩,
    ⟨on .ready, 0, 12, by decide +kernel⟩,
    ⟨{ on .ready with engines := State.reset.engines.set 12 { st := .standin, routed := some 1 } }, 0, 12, by decide +kernel⟩,
    ⟨{ on .ready with spare := { trimPending := some 3 } }, 0, by decide +kernel⟩,
    ⟨{ eng (fun g => { g with st := .armed }) with modState := .armed, spare := { trimPending := some 3 } }, 3, by decide +kernel⟩,
    ⟨{ eng (fun g => { g with st := .trim, routed := none }) with modState := .ready, records := State.reset.records.set 12 (some { phaseCode := List.replicate 104 0 }), spare := { trimming := some 3 } }, 3, by decide +kernel⟩,
    ⟨{ eng (fun g => { g with st := .trim, routed := none }) with modState := .armed, engines := (eng (fun g => { g with st := .trim, routed := none })).engines.set 12 { st := .standin, routed := some 3 }, spare := { standinFor := some 3, forTrim := true, trimDone := true, subState := .armed } }, 3, 3, by decide +kernel⟩⟩

/-- The hypotheses of Obligations.LedgerRows. -/
theorem test_witness_LedgerRows :
    (∃ (s : State) (e : EngineId) (d : Deposit) (r : _) (i : _) (j : _), s.ledger.cols ≤ 65536 ∧ s.engines[e].ledgerQ = d :: r ∧ d.at8 ≤ 8 * (s.tick : Int) ∧ s.ledger.heldFills = [] ∧ d.cellI = ((i : Nat) : Int) ∧ d.cellJ = ((j : Nat) : Int) ∧ i < s.ledger.cols ∧ j < s.ledger.rows ∧ decayed (s.armNat 0x5200 2) (s.cell i j) (s.tick / 80000 * 2000) ≠ 65535) ∧
    (∃ (s : State) (ti : _) (tj : _), s.ledger.cols ≤ 65536 ∧ 4 * ti < s.ledger.cols ∧ 4 * tj < s.ledger.rows ∧ 0 < s.armNat 0x5200 2) ∧
    (∃ (s : State) (ti : _) (tj : _), s.ledger.cols ≤ 65536 ∧ 4 * ti + 3 < s.ledger.cols ∧ 4 * tj + 3 < s.ledger.rows ∧ (ti, tj) ∉ s.ledger.heldFills ∧ (∀ m, assocGet (tj * 65536 + ti) s.ledger.swept = some m → m + 4096 ≤ s.tick / 80000)) ∧
    (∃ (s : State) (e : EngineId) (r : _) (rest : _), s.ledger.cols ≤ 65536 ∧ s.engines[e].lookReqs = r :: rest ∧ s.lanes[laneOf e].lookQ.length < 64) :=
  ⟨⟨{ eng (fun g => { g with ledgerQ := [{ at8 := 8, cellI := 7999, cellJ := 5999, energy := 640000000 }] }) with tick := 80000, modState := .building, armDict := [(entryKey 0x5200 1, 1)] }, 3, { at8 := 8, cellI := 7999, cellJ := 5999, energy := 640000000 }, [], 7999, 5999, by decide +kernel⟩,
    ⟨{ State.reset with tick := 80000, ledger := { heldFills := [(3, 5)], missQ := [(3, 5, { cellI := 13, cellJ := 21 })] } }, 3, 5, by decide +kernel⟩,
    ⟨{ State.reset with tick := 800000000, ledger := { cells := [(21 * 65536 + 13, 100 * 65536 + 5)] } }, 3, 5, by decide +kernel, by decide +kernel, by decide +kernel, by decide +kernel, (by intro d h; cases (show (none : Option Nat) = some d from h))⟩,
    ⟨eng fun g => { g with lookReqs := [{ update := 9, posted := 3, cellI := 13, cellJ := 21 }] }, 3, { update := 9, posted := 3, cellI := 13, cellJ := 21 }, [], by decide +kernel⟩⟩

/-- The hypotheses of Obligations.LaneRows. -/
theorem test_witness_LaneRows :
    (∃ (s : State) (p : _) (x : _) (r : _) (e : _), s.lasers[p].mpsQ = x :: r ∧ s.engineOf p = some e) ∧
    (∃ (s : State) (p : _) (r : _) (e : _), s.lasers[p].anom = some r ∧ s.engineOf p = some e ∧ r.active = false ∧ s.armNat 0x5000 2 ≤ r.length) ∧
    (∃ (s : State) (e : _) (sm : _) (p : _), s.lanes[laneOf e].sample = some sm ∧ s.engines[e].routed = some p ∧ s.engines[e].st ≠ .fault ∧ 0 < s.engines[e].onTime (160 * sm.slot + s.alignOf p) (160 * sm.slot + s.alignOf p + 160)) ∧
    (∃ (s : State) (e : _) (sm : _) (p : _), s.lanes[laneOf e].sample = some sm ∧ s.engines[e].routed = some p ∧ s.engines[e].onTime (160 * sm.slot + s.alignOf p) (160 * sm.slot + s.alignOf p + 160) ≤ 0) ∧
    (∃ (s : State) (n : LaneId), s.lanes[n].lost = true ∧ s.nat (0x580B + 0x20 * (s.paramLane n).val) 6 = 1 ∧ (if n.val < 13 then 4000 else 50) ≤ s.lanes[n].goodRun ∧ s.lossCause n = none ∧ (n.val < 13 ∨ 16 < n.val)) ∧
    (∃ (s : State) (n : LaneId), n.val < 17 ∧ s.slotOpen n = false) ∧
    (∃ (s : State) (n : LaneId) (a : _), axisOf n = some a ∧ s.slotOpen n = true) ∧
    (∃ (s : State) (n : LaneId), 17 ≤ n.val ∧ s.slotOpen n = true) :=
  ⟨⟨las fun l => { l with mpsQ := [{ valid := true, rawA := 100, rawB := 200, at8 := 8 }] }, 2, { valid := true, rawA := 100, rawB := 200, at8 := 8 }, [], 2, by decide +kernel⟩,
    ⟨las fun l => { l with anom := some { length := 65535 } }, 2, { length := 65535 }, 2, by decide +kernel⟩,
    ⟨{ eng (fun g => { g with st := .running, edges := [⟨0, true, 0⟩], slotPower := [(5, 40000)] }) with lanes := State.reset.lanes.set 3 { sample := some { valid := true, signal := 30000, slot := 5, gateOn := true } }, modState := .building }, 3, { valid := true, signal := 30000, slot := 5, gateOn := true }, 3, by decide +kernel⟩,
    ⟨{ eng (fun g => { g with st := .running }) with lanes := State.reset.lanes.set 3 { sample := some { valid := true, signal := 30000, slot := 5, gateOn := true } }, modState := .building }, 3, { valid := true, signal := 30000, slot := 5, gateOn := true }, 3, by decide +kernel⟩,
    ⟨({ State.reset with lanes := State.reset.lanes.set 3 { lost := true, goodRun := 4000 } } : State).put 0x586B 6 1, 3, by decide +kernel⟩,
    ⟨{ State.reset with tick := 45 }, 14, by decide +kernel⟩,
    ⟨{ State.reset with tick := 400 }, 14, 1, by decide +kernel⟩,
    ⟨({ State.reset with tick := 200 } : State).put 0x5A30 1 4, 17, by decide +kernel⟩⟩

/-- The hypotheses of Obligations.LaneCommands. -/
theorem test_witness_LaneCommands :
    (∃ (s : State) (q : Sess) (n : LaneId), s.admits q (0x5801 + 0x20 * n.val) 9 1 = true ∧ s.modState ≠ .building ∧ (∀ i < 8, stageOpValid (s.nat (0x5801 + 0x20 * n.val) (i + 1)) = true) ∧ ((s.stagedChain n).map fun g => stageMacs g.op).sum ≤ chainBudget n ∧ handoverValid (s.stagedChain n) (s.nat (0x5801 + 0x20 * n.val) 0x0B) = true) ∧
    (∃ (s : State) (q : Sess) (n : LaneId), s.admits q (0x5801 + 0x20 * n.val) 9 1 = true ∧ s.modState ≠ .building ∧ (∀ i < 8, stageOpValid (s.nat (0x5801 + 0x20 * n.val) (i + 1)) = true) ∧ chainBudget n < ((s.stagedChain n).map fun g => stageMacs g.op).sum) ∧
    (∃ (s : State) (q : Sess) (n : LaneId), s.admits q (0x580C + 0x20 * n.val) 0x0C 1 = true ∧ s.injAllowed n = true ∧ s.injPar n 1 ≠ 0) ∧
    (∃ (s : State) (q : Sess) (n : LaneId), s.admits q (0x580C + 0x20 * n.val) 0x0C 1 = true ∧ s.injAllowed n = false) ∧
    (∃ (s : State) (n : LaneId), s.lanes[n].inj.running = true ∧ (s.injOver n = true ∨ s.injAllowed n = false)) ∧
    (∃ (s : State) (q : Sess), s.admits q 0x5F00 8 1 = true) ∧
    (∃ (s : State), s.capture.state = 2 ∧ s.nat 0x5F00 7 ≤ s.capture.count) ∧
    (∃ (s : State) (q : Sess) (n : LaneId), s.admits q (0x580F + 0x20 * n.val) 1 1 = true) :=
  ⟨⟨on .ready, 0, 3, by decide +kernel⟩,
    ⟨((((((on .ready).put 0x5861 1 0x3000).put 0x5861 2 0x1000).put 0x5861 3 0x3000).put 0x5861 4 0x3000).put 0x5861 5 0x3000).put 0x5861 6 0x3000, 0, 3, by decide +kernel⟩,
    ⟨(on .service).put 0x586C 1 1, 0, 3, by decide +kernel⟩,
    ⟨(on .armed), 0, 3, by decide +kernel⟩,
    ⟨{ on .ready with lanes := State.reset.lanes.set 3 { inj := { running := true } } }, 3, by decide +kernel⟩,
    ⟨on .ready, 0, by decide +kernel⟩,
    ⟨{ on .ready with capture := { state := 2, count := 2 ^ 20 } }, by decide +kernel⟩,
    ⟨on .ready, 0, 17, by decide +kernel⟩⟩

/-- The hypotheses of Obligations.CalibrationStarts. -/
theorem test_witness_CalibrationStarts :
    (∃ (s : State) (q : Sess) (p : Byte) (l : LaserId) (r : _), s.calBusy = false ∧ laserOf p = some l ∧ s.admits q 0xE000 1 ((256 * 2 + p.toNat : Nat) : Int) = true ∧ s.modState = .service ∧ s.recordOf p.toNat = some r ∧ 81 ≤ (s.headFiducials l r).length ∧ emptySquare (r.w * 200) (s.headFiducials l r) = false) ∧
    (∃ (s : State) (q : Sess) (p : Byte) (l : LaserId), s.calBusy = false ∧ laserOf p = some l ∧ s.admits q 0xE000 1 ((256 * 2 + p.toNat : Nat) : Int) = true ∧ s.modState ≠ .service) ∧
    (∃ (s : State) (q : Sess) (p : Byte) (l : LaserId), s.calBusy = false ∧ laserOf p = some l ∧ s.admits q 0xE000 1 ((256 * 3 + p.toNat : Nat) : Int) = true ∧ s.modState = .service ∧ s.hasRecord p = true) ∧
    (∃ (s : State) (q : Sess) (p : Byte) (l : LaserId), s.calBusy = false ∧ laserOf p = some l ∧ s.admits q 0xE000 1 ((256 * 4 + p.toNat : Nat) : Int) = true ∧ s.modState = .service ∧ s.hasRecord p = true) ∧
    (∃ (s : State) (q : Sess) (p : Byte) (l : LaserId), s.calBusy = false ∧ laserOf p = some l ∧ s.admits q 0xE000 1 ((256 * 5 + p.toNat : Nat) : Int) = true ∧ s.modState = .service ∧ s.hasRecord p = true) ∧
    (∃ (s : State) (q : Sess) (p : Byte) (l : LaserId), s.calBusy = false ∧ laserOf p = some l ∧ s.admits q 0xE000 1 ((256 * 6 + 255 : Nat) : Int) = true ∧ s.modState = .service) ∧
    (∃ (s : State) (q : Sess) (p : Byte) (l : LaserId), s.calBusy = false ∧ laserOf p = some l ∧ s.admits q 0xE000 1 ((256 * 7 + p.toNat : Nat) : Int) = true ∧ s.modState = .service ∧ s.hasRecord p = true) ∧
    (∃ (s : State) (q : Sess) (p : Byte) (l : LaserId), s.calBusy = false ∧ laserOf p = some l ∧ s.admits q 0xE000 1 ((256 * 8 + p.toNat : Nat) : Int) = true ∧ s.modState = .service ∧ s.hasRecord p = true) ∧
    (∃ (s : State) (q : Sess) (p : Byte) (l : LaserId), s.calBusy = false ∧ laserOf p = some l ∧ s.admits q 0xE000 1 ((256 * 9 + p.toNat : Nat) : Int) = true ∧ s.modState = .service) ∧
    (∃ (s : State) (q : Sess) (p : Byte) (l : LaserId), s.calBusy = false ∧ laserOf p = some l ∧ s.admits q 0xE000 1 ((256 * 10 + 255 : Nat) : Int) = true ∧ s.modState = .ready) ∧
    (∃ (s : State) (q : Sess) (p : Byte) (l : LaserId), s.calBusy = false ∧ laserOf p = some l ∧ s.admits q 0xE000 1 ((256 * 11 + 255 : Nat) : Int) = true ∧ s.modState = .ready ∧ s.disciplined = true) ∧
    (∃ (s : State) (q : Sess) (p : Byte) (l : LaserId), s.calBusy = false ∧ laserOf p = some l ∧ s.admits q 0xE000 1 ((256 * 1 + p.toNat : Nat) : Int) = true ∧ s.modState = .service ∧ s.lasers[l].regs.length = 8) :=
  ⟨⟨{ on .service with records := State.reset.records.set 2 (some { w := 600 }), blobs := [(entryKey 0xE010 1, List.replicate 972 0)] }, 0, 2, 2, { w := 600 }, by decide +kernel⟩,
    ⟨on .ready, 0, 2, 2, by decide +kernel⟩,
    ⟨{ on .service with records := State.reset.records.set 2 (some { w := 600 }) }, 0, 2, 2, by decide +kernel⟩,
    ⟨{ on .service with records := State.reset.records.set 2 (some { w := 600 }) }, 0, 2, 2, by decide +kernel⟩,
    ⟨{ on .service with records := State.reset.records.set 2 (some { w := 600 }) }, 0, 2, 2, by decide +kernel⟩,
    ⟨{ on .service with records := State.reset.records.set 2 (some { w := 600 }) }, 0, 2, 2, by decide +kernel⟩,
    ⟨{ on .service with records := State.reset.records.set 2 (some { w := 600 }) }, 0, 2, 2, by decide +kernel⟩,
    ⟨{ on .service with records := State.reset.records.set 2 (some { w := 600 }) }, 0, 2, 2, by decide +kernel⟩,
    ⟨on .service, 0, 2, 2, by decide +kernel⟩,
    ⟨on .ready, 0, 2, 2, by decide +kernel⟩,
    ⟨{ on .ready with time := { status := 3 } }, 0, 2, 2, by decide +kernel⟩,
    ⟨{ on .service with lasers := State.reset.lasers.set 2 { regs := [1, 0, 0, 0, 0, 0, 700, 9], link := .identify } }, 0, 2, 2, by decide +kernel⟩⟩

/-- The hypotheses of Obligations.CalibrationEnds. -/
theorem test_witness_CalibrationEnds :
    (∃ (s : State) (q : Sess) (w : BitVec 32), s.admits q 0xE011 1 w.toNat = true ∧ s.cal.procedure = 7 ∧ s.cal.state = 2 ∧ s.cal.level < s.nat 0xE011 4) ∧
    (∃ (s : State) (q : Sess) (w : BitVec 32), s.admits q 0xE011 1 w.toNat = true ∧ s.cal.procedure = 7 ∧ s.cal.state = 2 ∧ s.nat 0xE011 4 ≤ s.cal.level) ∧
    (∃ (s : State) (d : _), s.cal.readingTimer = some d ∧ d ≤ s.tick) ∧
    (∃ (s : State) (q : Sess), s.admits q 0xE000 1 0xFF00 = true ∧ s.cal.running = true) ∧
    (∃ (s : State) (c : _), s.cal.running = true ∧ s.cal.abort = some c) ∧
    (∃ (s : State) (e : Int), s.cal.running = true ∧ s.cal.procedure = 4 ∧ s.cal.doneAt ≤ s.tick ∧ 0 ≤ e ∧ e ≤ 640) ∧
    (∃ (s : State) (e : Int), s.cal.running = true ∧ s.cal.procedure = 4 ∧ s.cal.doneAt ≤ s.tick ∧ (e < 0 ∨ 640 < e)) ∧
    (∃ (s : State), s.cal.running = true ∧ s.cal.procedure = 2 ∧ s.cal.doneAt ≤ s.tick) ∧
    (∃ (s : State) (q : Sess), s.admits q 0xE000 5 1 = true ∧ s.cal.state = 3 ∧ s.cal.procedure ≠ 1 ∧ s.figuresOk = true ∧ s.provisionalOk = true ∧ s.cal.pending ≠ []) ∧
    (∃ (s : State) (q : Sess), s.admits q 0xE000 5 1 = true ∧ s.cal.state = 3 ∧ s.figuresOk = false) ∧
    (∃ (s : State) (q : Sess), s.admits q 0xE000 5 2 = true ∧ s.cal.state = 3) ∧
    (∃ (s : State) (q : Sess) (r : Fin 13) (d : Bytes), s.admits q (0xE030 + r.val) 3 d.length = true ∧ (s.modState = .ready ∨ s.modState = .service) ∧ s.calBusy = false ∧ importCheck r.val d = 0) ∧
    (∃ (s : State) (i : _) (pr : _) (c : _) (rest : _), s.cal.committing = (i, pr, c) :: rest ∧ i < 13) :=
  ⟨⟨{ on .service with cal := { procedure := 7, laser := 2, state := 2, level := 1 } }, 0, 5000, by decide +kernel⟩,
    ⟨{ on .service with cal := { procedure := 7, laser := 2, state := 2, level := 32, readings := List.replicate 31 7 } }, 0, 5000, by decide +kernel⟩,
    ⟨{ on .service with tick := 40, cal := { procedure := 7, laser := 2, state := 2, level := 3, readingTimer := some 40 } }, 40, by decide +kernel⟩,
    ⟨{ on .service with cal := { procedure := 7, laser := 2, state := 2 } }, 0, by decide +kernel⟩,
    ⟨{ on .safe with cal := { procedure := 7, laser := 2, state := 2, abort := some 3 } }, 3, by decide +kernel⟩,
    ⟨{ on .service with records := State.reset.records.set 2 (some { w := 600 }), cal := { procedure := 4, laser := 2, state := 1 } }, (640 : Int), by decide +kernel⟩,
    ⟨{ on .service with records := State.reset.records.set 2 (some { w := 600 }), cal := { procedure := 4, laser := 2, state := 1 } }, (641 : Int), by decide +kernel⟩,
    ⟨{ on .service with records := State.reset.records.set 2 (some { w := 600 }), cal := { procedure := 2, laser := 2, state := 1 } }, by decide +kernel⟩,
    ⟨{ on .service with records := State.reset.records.set 2 (some { w := 600 }), cal := { procedure := 4, laser := 2, state := 3, pending := [(2, { w := 600, gateAlign := 5 })] } }, 0, by decide +kernel⟩,
    ⟨{ (on .service).put 0xE001 1 65535 with records := State.reset.records.set 2 (some { w := 600 }), cal := { procedure := 2, laser := 2, state := 3, pending := [(2, { w := 600 })] } }, 0, by decide +kernel⟩,
    ⟨{ on .service with cal := { procedure := 4, laser := 2, state := 3, pending := [(2, { w := 600 })] } }, 0, by decide +kernel⟩,
    ⟨on .ready, 0, 12, (let b := leBytes 2 0x4C43 ++ [2, 12] ++ leBytes 4 3 ++ leBytes 4 0x140 ++ List.replicate 304 0; b ++ leBytes 4 (crc32c b)), by decide +kernel⟩,
    ⟨{ on .ready with cal := { state := 4, committing := [(2, 4, { w := 600 })] } }, 2, 4, { w := 600 }, [], by decide +kernel⟩⟩

/-- The hypotheses of Obligations.CameraRows. -/
theorem test_witness_CameraRows :
    (∃ (s : State) (p : CamId) (vc : Fin 4), imagingRuns s.modState = true ∧ s.cams[p].staged = none ∧ s.cams[p].cfg.enable = true ∧ s.cams[p].cfg.vc = vc.val) ∧
    (∃ (s : State) (p : CamId) (vc : Fin 4) (g : _), imagingRuns s.modState = true ∧ s.cams[p].staged = some g ∧ g.vc = vc.val ∧ g.enable = true) ∧
    (∃ (s : State) (p : CamId) (vc : Fin 4) (dt : Byte) (px : Bytes) (f : _), imagingRuns s.modState = true ∧ s.cams[p].cfg.enable = true ∧ s.cams[p].cfg.vc = vc.val ∧ s.cams[p].cfg.dataType = dt.toNat ∧ s.cams[p].frame = some f ∧ (if f.lines % 8 = 0 then s.cams[p].imgCredits ≠ 0 else s.cams[p].groupLost = false) ∧ f.lines < f.height ∧ px.length = f.width * pixelBytes f.dataType) ∧
    (∃ (s : State) (p : CamId) (vc : Fin 4) (dt : Byte), imagingRuns s.modState = true ∧ s.cams[p].cfg.enable = true ∧ (s.cams[p].cfg.vc ≠ vc.val ∨ s.cams[p].cfg.dataType ≠ dt.toNat)) ∧
    (∃ (s : State) (p : CamId) (vc : Fin 4) (f : _), imagingRuns s.modState = true ∧ s.cams[p].cfg.vc = vc.val ∧ s.cams[p].frame = some f) ∧
    (∃ (s : State) (p : CamId) (f : _), s.cams[p].frame = some f ∧ f.deadline ≤ s.tick) ∧
    (∃ (s : State) (p : CamId) (q : _), s.admits q (0x7000 + p.val) 0x0A 1 = true ∧ s.modState ≠ .building ∧ (s.stagedCam p).lanes = 1 ∨ (s.stagedCam p).lanes = 2 ∧ 80 ≤ (s.stagedCam p).laneRate ∧ (s.stagedCam p).laneRate ≤ 1500 ∧ (∀ i ∈ [4, 5, 6, 7, 8, 9], s.stagedBad (0x7000 + p.val) i = false)) ∧
    (∃ (s : State) (p : CamId) (q : _), s.admits q (0x7000 + p.val) 0x0A 1 = true ∧ s.modState = .building) ∧
    (∃ (s : State) (p : CamId) (q : _), s.admits q (0x7000 + p.val) 0x0F 1 = true ∧ s.nat (0x7000 + p.val) 0x0C = 1 ∧ imagingRuns s.modState = true ∧ s.cams[p].trig = false ∧ s.tick % 32000 ≠ 0) ∧
    (∃ (s : State) (p : CamId), s.nat (0x7000 + p.val) 0x0C = 2 ∧ s.nat (0x7000 + p.val) 0x0D * (if 2 ≤ s.supply.level then 2 else 1) ≤ s.cams[p].scanCount ∧ imagingRuns s.modState = true ∧ s.cams[p].trig = false ∧ s.tick % 32000 ≠ 0) ∧
    (∃ (s : State) (p : CamId) (d : _), s.cams[p].trigUntil = some d ∧ d ≤ s.tick) :=
  ⟨⟨{ on .ready with cams := State.reset.cams.set 1 { cfg := { enable := true, vc := 3 }, frameNumber := 6 } }, 1, 3, by decide +kernel⟩,
    ⟨{ on .ready with cams := State.reset.cams.set 1 { staged := some { enable := true, vc := 3, width := 64, height := 2 } } }, 1, 3, { enable := true, vc := 3, width := 64, height := 2 }, by decide +kernel⟩,
    ⟨{ on .ready with cams := State.reset.cams.set 1 { cfg := { enable := true, vc := 3, dataType := 0x2B }, frame := some { width := 4, height := 2, lines := 1, pixels := List.replicate 16 7, deadline := 90 } } }, 1, 3, 0x2B, [1, 2, 3, 4, 5, 6, 7, 8], { width := 4, height := 2, lines := 1, pixels := List.replicate 16 7, deadline := 90 }, by decide +kernel⟩,
    ⟨{ on .ready with cams := State.reset.cams.set 1 { cfg := { enable := true, vc := 3, dataType := 0x2B }, frame := some { width := 4, height := 2, lines := 1, pixels := List.replicate 16 7, deadline := 90 } } }, 1, 2, 0x2B, by decide +kernel⟩,
    ⟨{ on .ready with cams := State.reset.cams.set 1 { cfg := { enable := true, vc := 3, dataType := 0x2B }, frame := some { width := 4, height := 2, lines := 1, pixels := List.replicate 16 7, deadline := 90 } } }, 1, 3, { width := 4, height := 2, lines := 1, pixels := List.replicate 16 7, deadline := 90 }, by decide +kernel⟩,
    ⟨{ on .ready with cams := State.reset.cams.set 1 { cfg := { enable := true, vc := 3 }, frame := some { width := 4, height := 2, lines := 1, pixels := List.replicate 16 7, deadline := 90 } }, tick := 90 }, 1, { width := 4, height := 2, lines := 1, pixels := List.replicate 16 7, deadline := 90 }, by decide +kernel⟩,
    ⟨on .ready, 1, 0, by decide +kernel⟩,
    ⟨on .building, 1, 0, by decide +kernel⟩,
    ⟨({ on .ready with tick := 32001 } : State).put 0x7001 0x0C 1, 1, 0, by decide +kernel⟩,
    ⟨({ on .ready with cams := State.reset.cams.set 1 { scanCount := 65535 }, tick := 32001 } : State).put 0x7001 0x0C 2, 1, by decide +kernel⟩,
    ⟨{ on .ready with cams := State.reset.cams.set 1 { trig := true, trigUntil := some 90, strobe := true }, tick := 90 }, 1, 90, by decide +kernel⟩⟩

/-- The hypotheses of Obligations.CompositorRows. -/
theorem test_witness_CompositorRows :
    (∃ (s : State) (q : Sess) (k : PlaneId), s.admits q (0x7100 + k.val) 0x12 1 = true ∧ s.planeCheck k (s.stagedPlane k) = 0) ∧
    (∃ (s : State) (q : Sess) (k : PlaneId), s.admits q (0x7100 + k.val) 0x12 1 = true ∧ s.planeCheck k (s.stagedPlane k) ≠ 0) ∧
    (∃ (s : State) (q : Sess) (k : PlaneId) (i : _), s.admits q (0x7100 + k.val) 0x11 1 = true ∧ s.planes[k].cfg.source = 0x10 ∧ s.memorySource s.planes[k].cfg = some i) ∧
    (∃ (s : State) (k : PlaneId) (i : _), s.planes[k].scaling = some i) ∧
    (∃ (s : State) (k : PlaneId), s.planes[k].stale = true ∧ s.planes[k].transparent = false ∧ s.planes[k].cfg.staleLimit ≤ s.planes[k].staleRun) ∧
    (∃ (s : State), imagingRuns s.modState = true) ∧
    (∃ (s : State) (q : Sess), s.admits q 0x7200 6 1 = true ∧ 25000 ≤ s.nat 0x7200 5 ∧ s.nat 0x7200 5 ≤ 300000 ∧ s.nat 0x7200 1 + 16 ≤ s.nat 0x7200 3 ∧ s.nat 0x7200 2 + 16 ≤ s.nat 0x7200 4) ∧
    (∃ (s : State) (q : Sess), s.admits q 0x7200 6 1 = true ∧ (s.nat 0x7200 5 < 25000 ∨ 300000 < s.nat 0x7200 5)) ∧
    (∃ (s : State) (q : Sess), s.admits q 0x7200 0x0C 1 = true) ∧
    (∃ (s : State) (d : _), s.comp.flattenRun = some d) ∧
    (∃ (s : State) (x : _) (rest : _), s.comp.ring = x :: rest) ∧
    (∃ (s : State) (tr : List (Nat × Nat)), s.comp.hpd = false ∧ s.nat 0x7210 1 = 1 ∧ imagingRuns s.modState = true ∧ (4, 0x14) ∈ tr) ∧
    (∃ (s : State) (d : _), s.comp.hpd = true ∧ s.nat 0x7210 1 = 1 ∧ imagingRuns s.modState = true ∧ s.comp.retryAt = some d ∧ d ≤ s.tick) :=
  ⟨⟨on .ready, 0, 3, by decide +kernel⟩,
    ⟨(on .ready).put 0x7103 5 8193, 0, 3, by decide +kernel⟩,
    ⟨{ on .ready with planes := State.reset.planes.set 3 { cfg := { source := 0x10, srcH := 0 } } }, 0, 3, { width := 256, height := 0, kind := 0, drop := 8, stride := 256 }, by decide +kernel⟩,
    ⟨{ on .ready with planes := State.reset.planes.set 3 { cfg := { srcW := 2, srcH := 2, dstW := 2, dstH := 2 }, scaling := some { width := 2, height := 2, stride := 2, data := [1, 2, 3, 4] } } }, 3, { width := 2, height := 2, stride := 2, data := [1, 2, 3, 4] }, by decide +kernel⟩,
    ⟨{ on .ready with planes := State.reset.planes.set 3 { stale := true, staleRun := 3 } }, 3, by decide +kernel⟩,
    ⟨{ on .ready with planes := State.reset.planes.set 3 { next := some { source := 0, alpha := 9 } }, comp := { width := 2, height := 2 } }, by decide +kernel⟩,
    ⟨on .ready, 0, by decide +kernel⟩,
    ⟨(on .ready).put 0x7200 5 300001, 0, by decide +kernel⟩,
    ⟨on .ready, 0, by decide +kernel⟩,
    ⟨{ on .ready with tick := 800000, comp := { flattenRun := some 0 } }, 0, by decide +kernel⟩,
    ⟨{ on .ready with comp := { writebackHeld := true, ring := [{ number := 4 }] } }, { number := 4 }, [], by decide +kernel⟩,
    ⟨(on .ready).put 0x7210 1 1, [(4, 0x14)], by decide +kernel⟩,
    ⟨({ on .ready with comp := { hpd := true, retryAt := some 0 } } : State).put 0x7210 1 1, 0, by decide +kernel⟩⟩

/-- The hypotheses of Obligations.PetalRows. -/
theorem test_witness_PetalRows :
    (∃ (s : State), s.tick % 32000 = 0 ∧ s.scanNumber ≠ s.tick / 32000 + 1 ∧ imagingRuns s.modState = true) ∧
    (∃ (s : State), imagingRuns s.modState = true) ∧
    (∃ (s : State) (q : _) (k : PetalId) (c : Fin 4) (v : BitVec 16), s.admits q (0x7810 + k.val) (c.val + 1) v.toNat = true ∧ v.toNat ≤ 4095) ∧
    (∃ (s : State) (q : _) (k : PetalId) (c : Fin 4) (v : BitVec 16), s.admits q (0x7810 + k.val) (c.val + 1) v.toNat = true ∧ 4095 < v.toNat) ∧
    (∃ (d : _), d ≤ 4095) :=
  ⟨⟨{ on .ready with tick := 64000, cams := State.reset.cams.set 1 { request := true }, petals := State.reset.petals.set 2 { failRun := [0, 0, 0, 0, 0, 2] } }, by decide +kernel⟩,
    ⟨{ on .ready with petals := State.reset.petals.set 2 { readings := [2000, 2100], badRun := 2 } }, by decide +kernel⟩,
    ⟨on .ready, 0, 7, 3, 4095, by decide +kernel⟩,
    ⟨on .ready, 0, 7, 3, 4096, by decide +kernel⟩,
    ⟨4095, by decide +kernel⟩⟩

/-- The hypotheses of Obligations.AxisCommands. -/
theorem test_witness_AxisCommands :
    (∃ (s : State) (q : Sess) (a : AxisId) (code : _), s.admits q (0x6001 + 0x100 * a.val) 1 ((code : Nat) * 256 + (0 : Nat)) = true ∧ axisServed s.modState code = true ∧ s.axisRefusal a code = none ∧ code = 1) ∧
    (∃ (s : State) (q : Sess) (a : AxisId) (code : _), s.admits q (0x6001 + 0x100 * a.val) 1 ((code : Nat) * 256 + (0 : Nat)) = true ∧ axisServed s.modState code = true ∧ s.axisRefusal a code = none ∧ code = 2) ∧
    (∃ (s : State) (q : Sess) (a : AxisId) (code : _), s.admits q (0x6001 + 0x100 * a.val) 1 ((code : Nat) * 256 + (0 : Nat)) = true ∧ axisServed s.modState code = true ∧ s.axisRefusal a code = none ∧ code = 3) ∧
    (∃ (s : State) (q : Sess) (a : AxisId) (code : _), s.admits q (0x6001 + 0x100 * a.val) 1 ((code : Nat) * 256 + (0 : Nat)) = true ∧ axisServed s.modState code = true ∧ s.axisRefusal a code = none ∧ code = 4) ∧
    (∃ (s : State) (q : Sess) (a : AxisId) (code : _), s.admits q (0x6001 + 0x100 * a.val) 1 ((code : Nat) * 256 + (0 : Nat)) = true ∧ axisServed s.modState code = true ∧ s.axisRefusal a code = none ∧ code = 5) ∧
    (∃ (s : State) (q : Sess) (a : AxisId) (code : _), s.admits q (0x6001 + 0x100 * a.val) 1 ((code : Nat) * 256 + (0 : Nat)) = true ∧ axisServed s.modState code = true ∧ s.axisRefusal a code = none ∧ code = 6 ∧ s.axes[a].coordMask = 0) ∧
    (∃ (s : State) (q : Sess) (a : AxisId) (code : _), s.admits q (0x6001 + 0x100 * a.val) 1 ((code : Nat) * 256 + (0 : Nat)) = true ∧ axisServed s.modState code = true ∧ s.axisRefusal a code = none ∧ code = 7) ∧
    (∃ (s : State) (q : Sess) (a : AxisId) (code : _), s.admits q (0x6001 + 0x100 * a.val) 1 ((code : Nat) * 256 + (0 : Nat)) = true ∧ axisServed s.modState code = true ∧ s.axisRefusal a code = none ∧ code = 9) ∧
    (∃ (s : State) (q : Sess) (a : AxisId) (code : _), s.admits q (0x6001 + 0x100 * a.val) 1 ((code : Nat) * 256 + (0 : Nat)) = true ∧ axisServed s.modState code = true ∧ s.axisRefusal a code = none ∧ code = 10) ∧
    (∃ (s : State) (q : Sess) (a : AxisId) (code : _), s.admits q (0x6001 + 0x100 * a.val) 1 ((code : Nat) * 256 + (0 : Nat)) = true ∧ axisServed s.modState code = true ∧ s.axisRefusal a code = none ∧ code = 11) ∧
    (∃ (s : State) (q : Sess) (a : AxisId) (m : Byte), s.admits q (0x6001 + 0x100 * a.val) 1 ((8 : Nat) * 256 + (m.toNat : Nat)) = true ∧ axisServed s.modState 8 = true ∧ 1 ≤ m.toNat ∧ m.toNat ≤ 15 ∧ (∀ i : AxisId, bitOf m.toNat i.val = true → s.axisRefusal i 8 = none)) ∧
    (∃ (s : State) (q : Sess) (a : AxisId) (st : _), s.admits q (0x6001 + 0x100 * a.val) 1 ((3 : Nat) * 256 + (0 : Nat)) = true ∧ axisServed s.modState 3 = true ∧ s.axisRefusal a 3 = some st ∧ st ≠ 0) ∧
    (∃ (s : State) (q : Sess) (a : AxisId), s.admits q (0x6001 + 0x100 * a.val) 1 ((3 : Nat) * 256 + (0 : Nat)) = true ∧ s.modState = .safe) ∧
    (∃ (s : State) (q : Sess) (a : AxisId) (v : BitVec 32), s.admits q (0x6002 + 0x100 * a.val) 1 v.toNat = true ∧ v.toNat ≠ 0 ∧ v.toNat ≤ (if s.nat (0x6003 + 0x100 * a.val) 1 = 1 then 4000000 else 100000000)) ∧
    (∃ (s : State) (q : Sess) (a : AxisId) (v : BitVec 32), s.admits q (0x6002 + 0x100 * a.val) 2 v.toNat = true ∧ v.toNat ≠ 0 ∧ v.toNat ≤ 4000000000 ∧ v.toNat ≤ s.nat (0x6002 + 0x100 * a.val) 4 ∧ s.axes[a].st = .standstill) ∧
    (∃ (s : State) (q : Sess) (a : AxisId) (v : BitVec 32), s.admits q (0x6002 + 0x100 * a.val) 2 v.toNat = true ∧ v.toNat ≠ 0 ∧ v.toNat ≤ 4000000000 ∧ s.nat (0x6002 + 0x100 * a.val) 4 < v.toNat) :=
  ⟨⟨ax fun x => { x with st := .disabled, flags := 1 }, 0, 2, 1, by decide +kernel⟩,
    ⟨ax fun x => { x with st := .standstill, flags := 1 }, 0, 2, 2, by decide +kernel⟩,
    ⟨ax fun x => { x with st := .standstill, flags := 1 }, 0, 2, 3, by decide +kernel⟩,
    ⟨ax fun x => { x with st := .standstill, flags := 1 }, 0, 2, 4, by decide +kernel⟩,
    ⟨ax fun x => { x with st := .standstill, flags := 1 }, 0, 2, 5, by decide +kernel⟩,
    ⟨ax fun x => { x with st := .moving, flags := 1 }, 0, 2, 6, by decide +kernel⟩,
    ⟨ax fun x => { x with st := .standstill, flags := 1 }, 0, 2, 7, by decide +kernel⟩,
    ⟨ax fun x => { x with st := .fault, flags := 1 }, 0, 2, 9, by decide +kernel⟩,
    ⟨ax fun x => { x with st := .standstill, flags := 1 }, 0, 2, 10, by decide +kernel⟩,
    ⟨ax fun x => { x with st := .standstill, flags := 1 }, 0, 2, 11, by decide +kernel⟩,
    ⟨((ax fun x => { x with st := .standstill, flags := 1 }).modAxis 3 fun x => { x with st := .standstill, flags := 1 }).put 0x6303 1 1, 0, 2, 12, by decide +kernel⟩,
    ⟨ax fun x => { x with st := .standstill }, 0, 2, 0x0307, by decide +kernel⟩,
    ⟨ax (fun x => { x with st := .standstill, flags := 1 }) 1 .safe, 0, 2, by decide +kernel⟩,
    ⟨ax fun x => { x with st := .standstill }, 0, 2, 4000000, by decide +kernel⟩,
    ⟨ax fun x => { x with st := .standstill }, 0, 2, 500000, by decide +kernel⟩,
    ⟨ax fun x => { x with st := .standstill }, 0, 2, 4000000000, by decide +kernel⟩⟩

/-- The hypotheses of Obligations.AxisEvents. -/
theorem test_witness_AxisEvents :
    (∃ (s : State) (a : AxisId) (d : _), s.axes[a].doneAt = some d ∧ d ≤ s.tick ∧ s.axes[a].st = .enabling) ∧
    (∃ (s : State) (a : AxisId) (d : _), s.axes[a].brakeAt = some d ∧ d ≤ s.tick ∧ s.axes[a].st = .enabling) ∧
    (∃ (s : State) (a : AxisId) (d : _), s.axes[a].enaOffAt = some d ∧ d ≤ s.tick) ∧
    (∃ (s : State) (a : AxisId), s.axes[a].st = .stopping ∧ s.axes[a].replan = false ∧ (s.axes[a].planState s.tick).2 = true) ∧
    (∃ (s : State) (a : AxisId) (d : _), s.axes[a].homeTimer = some d ∧ d ≤ s.tick ∧ s.axes[a].st = .homing ∧ s.axes[a].coordMask = 0 ∧ s.modState ≠ .building) ∧
    (∃ (s : State) (a : AxisId), s.axes[a].st = .standstill ∧ s.axes[a].profileEnded = true ∧ s.nat (0x6005 + 0x100 * a.val) 1 = 0) ∧
    (∃ (s : State) (a : AxisId), s.tick % 1600 = 0 ∧ s.axes[a].st = .standstill ∧ s.nat (0x6005 + 0x100 * a.val) 1 = 0) ∧
    (∃ (s : State) (a : AxisId) (p : _), s.tick % 1600 = 0 ∧ s.axes[a].st = .moving ∧ s.axes[a].motive = .target p ∧ s.axes[a].coordMask = 0 ∧ s.axes[a].limV = s.nat (0x6002 + 0x100 * a.val) 1 ∧ s.axes[a].replan = false ∧ (s.axes[a].planState s.tick).2 = true ∧ s.nat (0x6005 + 0x100 * a.val) 1 = 0) ∧
    (∃ (s : State) (a : AxisId) (d : _), s.axes[a].edgeTimer = some d ∧ d ≤ s.tick) ∧
    (∃ (s : State), s.inBuild = true ∧ s.layer.moving = true ∧ s.layer.stage ≤ 3 ∧ (∀ i ∈ s.layerAxes, s.nat (0x6008 + 0x100 * i.val) 3 + 1 = s.layer.stage → bitOf s.axes[i].flags 1 = true)) :=
  ⟨⟨{ ax fun x => { x with st := .enabling, doneAt := some 90 } with tick := 90 }, 2, 90, by decide +kernel⟩,
    ⟨{ ax fun x => { x with st := .enabling, brakeAt := some 90 } with tick := 90 }, 2, 90, by decide +kernel⟩,
    ⟨{ ax fun x => { x with enaOn := true, enaOffAt := some 90 } with tick := 90 }, 2, 90, by decide +kernel⟩,
    ⟨ax fun x => { x with st := .stopping, motive := .halt, stopFault := true }, 2, by decide +kernel⟩,
    ⟨{ ax fun x => { x with st := .homing, homeTimer := some 90, motive := .jog 5 } with tick := 90 }, 2, 90, by decide +kernel⟩,
    ⟨ax fun x => { x with st := .standstill }, 2, by decide +kernel⟩,
    ⟨{ ax fun x => { x with st := .standstill, pos := 77 } with tick := 1600 }, 2, by decide +kernel⟩,
    ⟨{ ax fun x => { x with st := .moving, motive := .target 77, limV := (ax id).nat 0x6202 1 } with tick := 1600 }, 2, (77 : Int), by decide +kernel⟩,
    ⟨{ ax fun x => { x with speed := 5, edgeTimer := some 90 } with tick := 90 }, 2, 90, by decide +kernel⟩,
    ⟨({ ax (fun x => { x with st := .standstill, flags := 3 }) 1 .building with layer := { moving := true, stage := 0, number := 4 } } : State).put 0x6208 1 2 |>.put 0x6208 2 500, by decide +kernel⟩⟩

/-- The hypotheses of Obligations.AxisInputs. -/
theorem test_witness_AxisInputs :
    (∃ (s : State) (a : AxisId) (d : Bool), s.axes[a].st = .slaved ∧ s.intoLimit a (s.axes[a].outstanding + (if d then 1 else -1) * s.nat (0x6004 + 0x100 * a.val) 1 * 65536) = false) ∧
    (∃ (s : State) (a : AxisId), s.axes[a].st ≠ .slaved) ∧
    (∃ (s : State) (a : AxisId) (la : _) (lb : _), s.nat (0x6005 + 0x100 * a.val) 1 = 1 ∧ s.nat (0x6005 + 0x100 * a.val) 5 = 0 ∧ s.nat (0x6005 + 0x100 * a.val) 3 = 0 ∧ (la != s.axes[a].lineA) ≠ (lb != s.axes[a].lineB)) ∧
    (∃ (s : State) (a : AxisId), s.nat (0x6005 + 0x100 * a.val) 1 = 1) ∧
    (∃ (s : State) (a : AxisId), s.nat (0x6005 + 0x100 * a.val) 1 = 2) ∧
    (∃ (s : State) (a : AxisId), s.nat (0x6005 + 0x100 * a.val) 1 ≠ 0 ∧ s.nat (0x6005 + 0x100 * a.val) 7 = 255 ∧ s.nat (0x6005 + 0x100 * a.val) 5 ≠ 0 ∧ s.axes[a].st ≠ .homing ∧ s.axes[a].indexRef = none) ∧
    (∃ (s : State) (a : AxisId) (r : _), s.nat (0x6005 + 0x100 * a.val) 1 ≠ 0 ∧ s.nat (0x6005 + 0x100 * a.val) 7 = 255 ∧ s.nat (0x6005 + 0x100 * a.val) 5 ≠ 0 ∧ s.axes[a].st ≠ .homing ∧ s.axes[a].indexRef = some r ∧ s.nat (0x6005 + 0x100 * a.val) 6 ≠ 1) ∧
    (∃ (s : State) (a : AxisId) (sw : Fin 3) (lv : _), s.axes[a].swRaw.getLsbD sw.val = lv ∧ s.axes[a].swLevel.getLsbD sw.val ≠ lv ∧ s.axes[a].swSince[sw] + s.nat (0x6007 + 0x100 * a.val) 2 * 80 ≤ s.tick) ∧
    (∃ (s : State) (a : AxisId) (sw : _), s.axes[a].swChatter.getLsbD sw.val = true ∧ s.transitions a sw ≤ s.nat (0x6007 + 0x100 * a.val) 3) ∧
    (∃ (s : State) (a : AxisId), s.nat (0x6005 + 0x100 * a.val) 1 ≠ 0 ∧ bitOf s.axes[a].flags 14 = false ∧ s.nat (0x580B + 0x20 * (axisLane a).val) 1 ≤ s.axes[a].invalidRun) ∧
    (∃ (s : State) (a : AxisId), s.axes[a].st = .moving ∧ s.axes[a].homeTimer = none) :=
  ⟨⟨ax fun x => { x with st := .slaved }, 2, true, by decide +kernel⟩,
    ⟨ax fun x => { x with st := .standstill }, 2, by decide +kernel⟩,
    ⟨(((ax fun x => { x with st := .moving, flags := 3 }).put 0x6205 1 1).put 0x6205 5 0).put 0x6205 3 0, 2, true, false, by decide +kernel⟩,
    ⟨((ax fun x => { x with st := .moving, flags := 3 }).put 0x6205 1 1), 2, by decide +kernel⟩,
    ⟨(ax id).put 0x6205 1 2, 2, by decide +kernel⟩,
    ⟨(((ax fun x => { x with st := .moving, flags := 3 }).put 0x6205 1 1).put 0x6205 7 255).put 0x6205 5 4000, 2, by decide +kernel⟩,
    ⟨((((ax fun x => { x with st := .moving, flags := 3 }).put 0x6205 1 1).put 0x6205 7 255).put 0x6205 5 4000).modAxis 2 fun x => { x with indexRef := some 30, encCount := 4100 }, 2, (30 : Int), by decide +kernel⟩,
    ⟨{ ax fun x => { x with st := .moving, motive := .jog 65536, vel := 65536, planV := 65536, swRaw := 1 } with tick := 8000000 }, 2, 0, true, by decide +kernel⟩,
    ⟨{ ax fun x => { x with swChatter := 2 } with tick := 8000000 }, 2, 1, by decide +kernel⟩,
    ⟨((ax fun x => { x with st := .moving, flags := 3 }).put 0x6205 1 1).modAxis 2 fun x => { x with invalidRun := 65535 }, 2, by decide +kernel⟩,
    ⟨{ ax (fun x => { x with st := .moving, motive := .jog 65536000, vel := 65536000, planV := 65536000, stallRun := 1000 }) 2 with tick := 800 }, 2, by decide +kernel⟩⟩

/-- The hypotheses of Obligations.BuildTransitions. -/
theorem test_witness_BuildTransitions :
    (∃ (s : State) (q : Sess) (p : _), s.alone 4 = true ∧ s.admits q 0x2001 1 1 = true ∧ (s.touch q).armRefusal = none ∧ s.pkg.inForce = some p ∧ ({ s.touch q with armDict := s.dict } : State).armCheck ((s.touch q).loadContexts p) = none ∧ s.nat 0x5000 4 = 0) ∧
    (∃ (s : State) (q : Sess), s.alone 4 = true ∧ s.admits q 0x2001 1 2 = true ∧ s.modState = .armed) ∧
    (∃ (s : State) (q : Sess), s.alone 4 = true ∧ s.admits q 0x2001 1 3 = true ∧ s.modState = .armed ∧ s.safetyOk = true) ∧
    (∃ (s : State) (q : Sess), s.alone 4 = true ∧ s.admits q 0x2001 1 5 = true ∧ s.modState = .paused ∧ s.safetyOk = true ∧ (s.touch q).nextUnreachable = false) ∧
    (∃ (s : State) (q : Sess), s.alone 4 = true ∧ s.admits q 0x2001 1 6 = true ∧ (s.modState = .building ∨ s.modState = .paused)) ∧
    (∃ (s : State) (q : Sess), s.alone 4 = true ∧ s.admits q 0x2001 1 7 = true ∧ s.modState = .safe ∧ s.safetyOk = true ∧ (∀ c ∈ s.safeCauses, s.persists c = false)) ∧
    (∃ (s : State) (q : Sess), s.alone 4 = true ∧ s.admits q 0x2001 1 8 = true ∧ s.modState = .ready) ∧
    (∃ (s : State) (q : Sess), s.alone 4 = true ∧ s.admits q 0x2001 1 9 = true ∧ s.modState = .service) ∧
    (∃ (s : State) (q : Sess) (n : _), s.pending = [.safetyOkFall n] ∧ 8 ≤ n ∧ s.admits q 0x2001 1 3 = true ∧ s.modState = .armed ∧ s.supply.resetHeld = none) ∧
    (∃ (s : State) (n : SensorId) (v : Int), s.pending = [.thermalShutdown n v] ∧ s.modState ≠ .off ∧ s.modState ≠ .thermalOff ∧ n.val < 16 ∧ s.excludedSensor n.val = false ∧ 12000 ≤ v) ∧
    (∃ (s : State) (ns : _), s.pending = [.resetL ns] ∧ 1000 ≤ ns ∧ s.modState = .service ∧ s.supply.copierPending = none) :=
  ⟨⟨(({ on .ready .operator with pkg := { state := 3, inForce := some {} }, dram := Vector.replicate 2 { trained := 1 } } : State).put 0x1010 1 7), 0, {}, by decide +kernel⟩,
    ⟨on .armed .operator, 0, by decide +kernel⟩,
    ⟨{ on .armed .operator with safetyOk := true }, 0, by decide +kernel⟩,
    ⟨{ on .paused .operator with safetyOk := true }, 0, by decide +kernel⟩,
    ⟨on .building .operator, 0, by decide +kernel⟩,
    ⟨{ on .safe .integrator with safetyOk := true, safeCauses := [.safetyOk] }, 0, by decide +kernel⟩,
    ⟨on .ready, 0, by decide +kernel⟩,
    ⟨on .service, 0, by decide +kernel⟩,
    ⟨{ on .armed .operator with safetyOk := true, pending := [.safetyOkFall 8] }, 0, 8, by decide +kernel⟩,
    ⟨{ on .building with pending := [.thermalShutdown 3 12500] }, 3, 12500, by decide +kernel⟩,
    ⟨{ on .service with safetyOk := true, pending := [.resetL 1000] }, 1000, by decide +kernel⟩⟩

/-- The hypotheses of Obligations.BuildRows. -/
theorem test_witness_BuildRows :
    (∃ (s : State) (q : Sess), s.alone 4 = true ∧ s.admits q 0x2001 1 4 = true ∧ s.modState = .building ∧ s.layer.running = true) ∧
    (∃ (s : State) (q : Sess), s.alone 4 = true ∧ s.admits q 0x2001 1 4 = true ∧ s.modState = .building ∧ s.layer.running = false) ∧
    (∃ (s : State) (q : Sess), s.alone 4 = true ∧ s.admits q 0x2001 1 10 = true ∧ s.modState ≠ .building ∧ s.modState ≠ .paused ∧ s.supply.copierPending = none) ∧
    (∃ (s : State) (q : Sess), s.alone 4 = true ∧ s.admits q 0x2001 1 10 = true ∧ s.modState = .paused ∧ s.supply.copierPending = none) ∧
    (∃ (s : State) (q : Sess) (d : _), s.admits q 0x2003 1 0 = true ∧ s.modState = .armed ∧ d.length = 12 ∧ d ≠ List.replicate 12 0 ∧ leAt d 8 4 ≤ 999999999 ∧ s.time.status ≠ 0 ∧ s.time.now + 1000000 * nsUnit ≤ instantOf d * nsUnit) ∧
    (∃ (s : State) (q : Sess), s.admits q 0x2003 1 0 = true ∧ s.modState = .armed) ∧
    (∃ (s : State) (q : Sess) (d : _), s.admits q 0x2003 4 0 = true ∧ d.length = 12 ∧ d ≠ List.replicate 12 0 ∧ leAt d 8 4 ≤ 999999999) ∧
    (∃ (s : State) (x : _), s.time.scheduled = some x ∧ s.modState = .armed ∧ s.tick % 40 = 0 ∧ s.reached s.tick x = true ∧ s.safetyOk = true) ∧
    (∃ (s : State) (x : _), s.time.scheduled = some x ∧ s.modState = .armed ∧ s.tick % 40 = 0 ∧ s.reached s.tick x = true ∧ s.safetyOk = false) ∧
    (∃ (s : State) (n : _), s.layerCanStart = true ∧ s.nextLayer = some n ∧ s.spare.pathFault = false) ∧
    (∃ (s : State) (n : _), s.layerCanStart = true ∧ s.nextLayer = some n ∧ s.spare.pathFault = true ∧ s.supply.resetHeld = none) ∧
    (∃ (s : State), s.layerCanStart = false) ∧
    (∃ (s : State), s.modState = .building ∧ s.layer.running = true ∧ s.layerOver = false) ∧
    (∃ (s : State), s.modState = .building ∧ s.layer.running = true ∧ s.layerOver = true ∧ s.sec.cryptoPending = false) ∧
    (∃ (s : State), s.modState = .building ∧ s.layer.running = false ∧ s.sec.cryptoPending = false ∧ s.layer.coverageLost = false ∧ (∀ x ∈ s.contexts, s.hasWork x.2 = false)) :=
  ⟨⟨{ on .building .operator with layer := { running := true } }, 0, by decide +kernel⟩,
    ⟨on .building .operator, 0, by decide +kernel⟩,
    ⟨on .ready, 0, by decide +kernel⟩,
    ⟨on .paused, 0, by decide +kernel⟩,
    ⟨{ on .armed .operator with time := { status := 2 } }, 0, ([3, 0, 0, 0, 0, 0, 0, 0, 9, 0, 0, 0] : Bytes), by decide +kernel⟩,
    ⟨on .armed .operator, 0, by decide +kernel⟩,
    ⟨on .ready .operator, 0, ([3, 0, 0, 0, 0, 0, 0, 0, 9, 0, 0, 0] : Bytes), by decide +kernel⟩,
    ⟨{ on .armed with tick := 40, safetyOk := true, time := { status := 2, now := 4000000000 * nsUnit, anchor := some { seconds := 4 }, scheduled := some 5 } }, 5, by decide +kernel⟩,
    ⟨{ on .armed with tick := 40, time := { status := 2, now := 4000000000 * nsUnit, anchor := some { seconds := 4 }, scheduled := some 5 } }, 5, by decide +kernel⟩,
    ⟨{ on .building with layer := { first := true }, contexts := [(4, { st := .ready, injected := true, layer := 7, engine := 3 })] }, 7, by decide +kernel⟩,
    ⟨{ on .building with spare := { pathFault := true }, layer := { first := true }, contexts := [(4, { st := .ready, injected := true, layer := 7, engine := 3 })] }, 7, by decide +kernel⟩,
    ⟨on .ready, by decide +kernel⟩,
    ⟨{ on .building with layer := { running := true }, engines := State.reset.engines.set 3 { st := .running } }, by decide +kernel⟩,
    ⟨{ on .building with layer := { running := true } }, by decide +kernel⟩,
    ⟨on .building, by decide +kernel⟩⟩

/-- The hypotheses of Obligations.CommandRefused. -/
theorem test_witness_CommandRefused : ∃ (s : State) (q : Sess) (i : Instr) (code : Nat) (status : Nat), (i, code, status) ∈ (row (s.modState != .armed) (.disarm q)).map (·, 2, 0x0105) ++ (row (s.modState == .ready) (.start q)).map (·, 3, 0x0303) ++ (row (s.modState != .ready && s.modState != .armed) (.start q)).map (·, 3, 0x0105) ++ (row (s.modState == .armed && !s.safetyOk) (.start q)).map (·, 3, 0x0306) ++ (row (s.modState != .building) (.pause q)).map (·, 4, 0x0105) ++ (row (s.modState != .paused) (.resume q)).map (·, 5, 0x0105) ++ (row (s.modState == .paused && !s.safetyOk) (.resume q)).map (·, 5, 0x0306) ++ (row (s.modState != .building && s.modState != .paused) (.abort q)).map (·, 6, 0x0105) ++ (row (s.modState != .safe) (.clearSafe q)).map (·, 7, 0x0105) ++ (row (s.modState == .safe && !s.safetyOk) (.clearSafe q)).map (·, 7, 0x0306) ++ (row (s.modState == .safe && s.safetyOk && s.safeCauses.any s.persists) (.clearSafe q)).map (·, 7, 0x0301) ++ (row (s.modState != .ready) (.enterService q)).map (·, 8, 0x0105) ++ (row (s.modState != .service) (.leaveService q)).map (·, 9, 0x0105) ++ (row (s.modState == .building) (.restart q)).map (·, 10, 0x0302) ∧ s.alone 4 = true ∧ s.admits q 0x2001 1 code = true :=
  ⟨on .ready .operator, 0, .start 0, 3, 0x0303, by decide +kernel⟩

/-- The hypotheses of Obligations.RequestRows. -/
theorem test_witness_RequestRows :
    (∃ (s : State) (q : Sess) (m : Bytes) (x : Bytes) (d : Entry), s.asks q m 2 [(1, x)] ∧ x.length = 12 ∧ findEntry (leAt x 0 2) (leAt x 2 1) = some d ∧ (within 0x8021 1 2 (leAt x 0 2)).isSome = false ∧ leAt x 0 2 ≠ 0xB010 ∧ (s.noted q).readStatus q (leAt m 3 1) (leAt x 0 2) (leAt x 2 1) = none ∧ leAt x 4 4 ≤ ((s.noted q).entryBytes q (leAt x 0 2) (leAt x 2 1) d).length) ∧
    (∃ (s : State) (q : Sess) (m : Bytes) (x : Bytes) (d : Entry), s.asks q m 4 [(3, x)] ∧ 8 ≤ x.length ∧ findEntry (leAt x 0 2) (leAt x 2 1) = some d ∧ d.ty ≠ .str ∧ d.ty ≠ .dom ∧ tooNew (leAt m 3 1) (leAt x 0 2) (leAt x 2 1) = false ∧ leAt x 0 2 ≠ 0xA010 ∧ bitOf (leAt x 3 1) 0 = true ∧ leAt x 4 4 = 0) ∧
    (∃ (s : State) (q : Sess) (m : Bytes) (x : Bytes) (d : Entry) (r : State) (ix : Nat) (sub : Nat) (v : Int), s.asks q m 4 [(3, x)] ∧ 8 ≤ x.length ∧ r = s.noted q ∧ ix = leAt x 0 2 ∧ sub = leAt x 2 1 ∧ findEntry ix sub = some d ∧ d.ty ≠ .str ∧ d.ty ≠ .dom ∧ tooNew (leAt m 3 1) ix sub = false ∧ bitOf (leAt x 3 1) 0 = true ∧ leAt x 4 4 = 0 ∧ hostKey (entryKey ix sub) = true ∧ r.admits q ix sub (leNat (x.drop 8)) = true ∧ r.commandWrite q ix sub (x.drop 8) = none ∧ (r.touch q).writeSecurity ix sub (x.drop 8) = none ∧ r.stateRefusal ix sub = none ∧ (x.drop 8).length = typeSize d.ty ∧ v = decodeValue d.ty (x.drop 8) ∧ inRange d v = true ∧ (r.touch q).valueOk ix sub v = true ∧ (r.touch q).putEntry q ix sub v = (r.touch q).put ix sub v ∧ ((r.touch q).put ix sub v).consistentAfter ix sub = true) ∧
    (∃ (s : State) (q : Sess) (m : Bytes) (x : Bytes), s.asks q m 6 [(0x20, x)] ∧ x.length = 8 ∧ leAt x 0 1 ≤ 7 ∧ leAt x 2 2 = 0) ∧
    (∃ (s : State) (q : Sess) (m : Bytes) (x : Bytes), s.asks q m 6 [(0x20, x)] ∧ x.length = 8 + 4 * leAt x 2 2 ∧ leAt x 0 1 ≤ 7 ∧ 1 ≤ leAt x 2 2 ∧ leAt x 2 2 ≤ 64 ∧ 1 ≤ leAt x 4 4 ∧ leAt x 4 4 ≤ 60000 ∧ (s.noted q).subscribeFailure q (leAt m 3 1) [] ((List.range (leAt x 2 2)).map fun i => leAt x (8 + 4 * i) 2 * 256 + leAt x (10 + 4 * i) 1) = none ∧ (s.noted q).cyclicLoad q (leAt x 0 1) + 1000 / ((leAt x 4 4 : Nat) : Rat) ≤ 4000) ∧
    (∃ (s : State) (q : Sess) (m : Bytes) (l : List (Nat × Bytes)), s.asks q m 9 l) ∧
    (∃ (s : State) (q : Sess) (m : Bytes) (l : List (Nat × Bytes)) (x : Session) (r : Bytes), s.served q = true ∧ s.openMessage m = .ok l ∧ leAt m 4 1 = 4 ∧ s.sessions[q] = some x ∧ assocGet (leAt m 0x0C 4) x.responses = some r) ∧
    (∃ (s : State) (q : Sess) (m : Bytes) (e : Nat), s.served q = true ∧ s.openMessage m = .error e) ∧
    (∃ (s : State) (q : Sess) (i : Fin 8) (x : Session) (u : Subscription), s.sessions[q] = some x ∧ x.subs.find? (fun u => u.id == i.val) = some u ∧ s.served q = true ∧ s.publishes = true ∧ s.time.status = 0 ∧ s.cycleInstant u.period ≠ u.last ∧ s.tick ≤ s.cycleInstant u.period + 4000) ∧
    (∃ (s : State) (q : Sess) (i : Fin 8) (x : Session) (u : Subscription), s.sessions[q] = some x ∧ x.subs.find? (fun u => u.id == i.val) = some u ∧ s.publishes = false) ∧
    (∃ (s : State) (q : Sess) (i : Fin 8) (x : Session) (u : Subscription), s.sessions[q] = some x ∧ x.subs.find? (fun u => u.id == i.val) = some u ∧ s.cycleInstant u.period = u.last) :=
  ⟨⟨(on .ready .operator), 0, (message 2 2 3 7 9 (element 1 [0, 16, 1, 0, 0, 0, 0, 0, 4, 0, 0, 0]) : Bytes), ([0, 16, 1, 0, 0, 0, 0, 0, 4, 0, 0, 0] : Bytes), ((findEntry 0x1000 1).get (by decide +kernel)), ⟨by decide +kernel, of_ok (by decide +kernel), by decide +kernel, _, rfl, by decide +kernel⟩, by decide +kernel, by decide +kernel, by decide +kernel, by decide +kernel, by decide +kernel, by decide +kernel⟩,
    ⟨(on .ready .integrator), 0, (message 2 4 3 7 9 (element 3 [16, 16, 1, 1, 0, 0, 0, 0, 7, 0]) : Bytes), ([16, 16, 1, 1, 0, 0, 0, 0, 7, 0] : Bytes), ((findEntry 0x1010 1).get (by decide +kernel)), ⟨by decide +kernel, of_ok (by decide +kernel), by decide +kernel, _, rfl, by decide +kernel⟩, by decide +kernel, by decide +kernel, by decide +kernel, by decide +kernel, by decide +kernel, by decide +kernel, by decide +kernel, by decide +kernel⟩,
    ⟨(on .ready .integrator), 0, (message 2 4 3 7 9 (element 3 ([0x12, 16, 3, 1, 0, 0, 0, 0] ++ leBytes (typeSize ((findEntry 0x1012 3).get (by decide +kernel)).ty) 5000)) : Bytes), ([0x12, 16, 3, 1, 0, 0, 0, 0] ++ leBytes (typeSize ((findEntry 0x1012 3).get (by decide +kernel)).ty) 5000), ((findEntry 0x1012 3).get (by decide +kernel)), ((on .ready .integrator).noted 0), 0x1012, 3, 5000, ⟨by decide +kernel, of_ok (by decide +kernel), by decide +kernel, _, rfl, by decide +kernel⟩, by decide +kernel, by decide +kernel, by decide +kernel, by decide +kernel, by decide +kernel, by decide +kernel, by decide +kernel, by decide +kernel, by decide +kernel, by decide +kernel, by decide +kernel, by decide +kernel, by decide +kernel, by decide +kernel, by decide +kernel, by decide +kernel, by decide +kernel, by decide +kernel, by decide +kernel, by decide +kernel, by decide +kernel⟩,
    ⟨{ on .ready .operator with sessions := State.reset.sessions.set 0 (some { subs := [{ id := 3 }] }) }, 0, (message 2 6 3 7 9 (element 0x20 [3, 0, 0, 0, 0, 0, 0, 0]) : Bytes), ([3, 0, 0, 0, 0, 0, 0, 0] : Bytes), ⟨by decide +kernel, of_ok (by decide +kernel), by decide +kernel, _, rfl, by decide +kernel⟩, by decide +kernel, by decide +kernel, by decide +kernel⟩,
    ⟨(on .ready .operator), 0, (message 2 6 3 7 9 (element 0x20 [3, 0, 1, 0, 100, 0, 0, 0, 0, 144, 1, 0]) : Bytes), ([3, 0, 1, 0, 100, 0, 0, 0, 0, 144, 1, 0] : Bytes), ⟨by decide +kernel, of_ok (by decide +kernel), by decide +kernel, _, rfl, by decide +kernel⟩, by decide +kernel, by decide +kernel, by decide +kernel, by decide +kernel, by decide +kernel, by decide +kernel, by decide +kernel, by decide +kernel⟩,
    ⟨(on .ready .operator), 0, (message 2 9 3 7 9 ([]) : Bytes), [], ⟨by decide +kernel, of_ok (by decide +kernel), by decide +kernel, _, rfl, by decide +kernel⟩⟩,
    ⟨{ on .ready with sessions := State.reset.sessions.set 0 (some { responses := [(9, [1, 2])] }) }, 0, (message 2 4 3 7 9 ([]) : Bytes), [], { responses := [(9, [1, 2])] }, [1, 2], by decide +kernel, of_ok (by decide +kernel), by decide +kernel, by decide +kernel, by decide +kernel⟩,
    ⟨(on .ready .operator), 0, ([1, 2, 3] : Bytes), 1, by decide +kernel, of_error (by decide +kernel)⟩,
    ⟨({ on .ready with tick := 80001, sessions := State.reset.sessions.set 0 (some { subs := [{ id := 3, period := 1, count := 4 }] }) } : State).put 0x1010 1 7, 0, 3, { subs := [{ id := 3, period := 1, count := 4 }] }, { id := 3, period := 1, count := 4 }, by decide +kernel⟩,
    ⟨{ on .ready with tick := 80001, sessions := State.reset.sessions.set 0 (some { subs := [{ id := 3, period := 1, count := 4 }] }) }, 0, 3, { subs := [{ id := 3, period := 1, count := 4 }] }, { id := 3, period := 1, count := 4 }, by decide +kernel⟩,
    ⟨{ on .ready with tick := 70, sessions := State.reset.sessions.set 0 (some { subs := [{ id := 3, period := 1, count := 4 }] }) }, 0, 3, { subs := [{ id := 3, period := 1, count := 4 }] }, { id := 3, period := 1, count := 4 }, by decide +kernel⟩⟩

/-- The hypotheses of Obligations.EntryWriteRow. -/
theorem test_witness_EntryWriteRow :
    (∃ (s : State) (q : Sess) (ix : BitVec 16) (sub : Byte) (data : Bytes) (d : Entry), findEntry ix.toNat sub.toNat = some d ∧ d.ty ≠ .str ∧ d.ty ≠ .dom ∧ hostKey (entryKey ix.toNat sub.toNat) = true ∧ s.admits q ix.toNat sub.toNat (leNat data) = true ∧ s.commandWrite q ix.toNat sub.toNat data = none ∧ (s.touch q).writeSecurity ix.toNat sub.toNat data = none ∧ s.stateRefusal ix.toNat sub.toNat = none ∧ data.length ≠ typeSize d.ty) ∧
    (∃ (s : State) (q : Sess) (ix : BitVec 16) (sub : Byte) (data : Bytes) (d : Entry), findEntry ix.toNat sub.toNat = some d ∧ d.ty ≠ .str ∧ d.ty ≠ .dom ∧ hostKey (entryKey ix.toNat sub.toNat) = true ∧ s.admits q ix.toNat sub.toNat (leNat data) = true ∧ s.commandWrite q ix.toNat sub.toNat data = none ∧ (s.touch q).writeSecurity ix.toNat sub.toNat data = none ∧ s.stateRefusal ix.toNat sub.toNat = none ∧ data.length = typeSize d.ty ∧ (inRange d (decodeValue d.ty data) = false ∨ (s.touch q).valueOk ix.toNat sub.toNat (decodeValue d.ty data) = false)) ∧
    (∃ (s : State) (q : Sess) (ix : BitVec 16) (sub : Byte) (data : Bytes) (d : Entry), findEntry ix.toNat sub.toNat = some d ∧ d.ty ≠ .str ∧ d.ty ≠ .dom ∧ hostKey (entryKey ix.toNat sub.toNat) = true ∧ s.admits q ix.toNat sub.toNat (leNat data) = true ∧ s.commandWrite q ix.toNat sub.toNat data = none ∧ (s.touch q).writeSecurity ix.toNat sub.toNat data = none ∧ s.stateRefusal ix.toNat sub.toNat = none ∧ data.length = typeSize d.ty ∧ inRange d (decodeValue d.ty data) = true ∧ (s.touch q).valueOk ix.toNat sub.toNat (decodeValue d.ty data) = true ∧ (s.touch q).putEntry q ix.toNat sub.toNat (decodeValue d.ty data) = (s.touch q).put ix.toNat sub.toNat (decodeValue d.ty data) ∧ ((s.touch q).put ix.toNat sub.toNat (decodeValue d.ty data)).consistentAfter ix.toNat sub.toNat = true) ∧
    (∃ (s : State) (q : Sess) (ix : BitVec 16) (sub : Byte) (data : Bytes) (d : Entry), findEntry ix.toNat sub.toNat = some d ∧ d.ty ≠ .str ∧ d.ty ≠ .dom ∧ hostKey (entryKey ix.toNat sub.toNat) = true ∧ s.admits q ix.toNat sub.toNat (leNat data) = true ∧ s.commandWrite q ix.toNat sub.toNat data = none ∧ (s.touch q).writeSecurity ix.toNat sub.toNat data = none ∧ s.stateRefusal ix.toNat sub.toNat = none ∧ data.length = typeSize d.ty ∧ inRange d (decodeValue d.ty data) = true ∧ (s.touch q).valueOk ix.toNat sub.toNat (decodeValue d.ty data) = true ∧ (s.touch q).putEntry q ix.toNat sub.toNat (decodeValue d.ty data) = (s.touch q).put ix.toNat sub.toNat (decodeValue d.ty data) ∧ ((s.touch q).put ix.toNat sub.toNat (decodeValue d.ty data)).consistentAfter ix.toNat sub.toNat = false) ∧
    (∃ (s : State) (q : Sess) (ix : BitVec 16) (sub : Byte) (data : Bytes) (x : Session) (d : _) (st : _), s.served q = true ∧ s.sessions[q] = some x ∧ s.commandWrite q ix.toNat sub.toNat data = none ∧ findEntry ix.toNat sub.toNat = some d ∧ s.accessRefusal x.role ix.toNat sub.toNat d.acc true (leNat data) = some st) ∧
    (∃ (s : State) (q : Sess) (ix : BitVec 16) (sub : Byte) (data : Bytes) (x : Session), s.served q = true ∧ s.sessions[q] = some x ∧ s.commandWrite q ix.toNat sub.toNat data = none ∧ findEntry ix.toNat sub.toNat = none) :=
  ⟨⟨on .ready .integrator, 0, 0x1012, 3, [1], ((findEntry 0x1012 3).get (by decide +kernel)), by decide +kernel⟩,
    ⟨on .ready .integrator, 0, 0x1012, 3, [0, 0], ((findEntry 0x1012 3).get (by decide +kernel)), by decide +kernel⟩,
    ⟨on .ready .integrator, 0, 0x1012, 3, leBytes (typeSize ((findEntry 0x1012 3).get (by decide +kernel)).ty) 5000, ((findEntry 0x1012 3).get (by decide +kernel)), by decide +kernel⟩,
    ⟨(on .ready .integrator).put 0x9012 2 50000, 0, 0x9012, 3, [100, 0, 0, 0], ((findEntry 0x9012 3).get (by decide +kernel)), by decide +kernel⟩,
    ⟨on .ready .operator, 0, 0x1012, 3, [1], { role := .operator }, ((findEntry 0x1012 3).get (by decide +kernel)), 0x0106, by decide +kernel⟩,
    ⟨on .ready .operator, 0, 0x1013, 99, [1], { role := .operator }, by decide +kernel⟩⟩

/-- The hypotheses of Obligations.NodeRows. -/
theorem test_witness_NodeRows :
    (∃ (s : State) (m : Bytes) (v : Bytes) (tag : Bytes), choyrServed s.modState = true ∧ s.openMessage m = .ok [(0x10, v), (0x11, tag)] ∧ leAt m 4 1 = 1 ∧ v.length = 16 ∧ tag.length = 16 ∧ leAt v 2 1 = 3 ∧ 0 < leAt v 0 2 ∧ leAt v 0 2 ≤ 16383 ∧ s.nv.domainKey = none ∧ leAt v 0 2 ≠ s.nat 0x1010 1) ∧
    (∃ (s : State) (n : BitVec 14) (x : _), s.nodes.find? (fun x => x.id == n.toNat) = some x ∧ x.heardAt + 800000000 ≤ s.tick) ∧
    (∃ (s : State) (n : BitVec 14) (x : _), s.nodes.find? (fun x => x.id == n.toNat) = some x ∧ s.tick < x.heardAt + 800000000) ∧
    (∃ (s : State), choyrServed s.modState = true ∧ s.announceAt ≤ s.tick) ∧
    (∃ (s : State) (b : Bool), choyrServed s.modState = true ∧ s.ringUp.getLsbD (if b then 0 else 1) = true) ∧
    (∃ (toMe : _) (fromMe : _) (ptp : _), (toMe || fromMe || ptp) = true) ∧
    (∃ (s : State) (b : _) (up : _), choyrServed s.modState = true ∧ s.ringUp.getLsbD (b2n b) ≠ up) ∧
    (∃ (s : State) (d : _), s.layer.hostLossTimer = some d ∧ s.nat 0x1012 4 = 1 ∧ d + 800000000 ≤ s.tick ∧ s.openSessions = 0 ∧ s.modState = .building) :=
  ⟨⟨on .ready, (message 2 1 9 0 5 (element 0x10 ([9, 0, 3, 1, 0, 0, 0, 0, 1, 2, 3, 4, 5, 6, 7, 8] : Bytes) ++ element 0x11 (List.replicate 16 0 : Bytes)) : Bytes), ([9, 0, 3, 1, 0, 0, 0, 0, 1, 2, 3, 4, 5, 6, 7, 8] : Bytes), (List.replicate 16 0 : Bytes), by decide +kernel, of_ok (by decide +kernel), by decide +kernel, by decide +kernel, by decide +kernel, by decide +kernel, by decide +kernel, by decide +kernel, by decide +kernel, by decide +kernel⟩,
    ⟨{ on .ready with tick := 900000000, nodes := [{ id := 9 }] }, 9, { id := 9 }, by decide +kernel⟩,
    ⟨{ on .ready with tick := 700000000, nodes := [{ id := 9 }] }, 9, { id := 9 }, by decide +kernel⟩,
    ⟨on .ready, by decide +kernel⟩,
    ⟨{ on .ready with ringUp := 3 }, true, by decide +kernel⟩,
    ⟨false, false, true, by decide +kernel⟩,
    ⟨{ on .ready with ringUp := 0 }, true, true, by decide +kernel⟩,
    ⟨({ State.reset with modState := .building, tick := 900000000, layer := { hostLossTimer := some 5 } } : State).put 0x1012 4 1, 5, by decide +kernel⟩⟩

/-- The hypotheses of Obligations.SessionRows. -/
theorem test_witness_SessionRows :
    (∃ (s : State) (ip : BitVec 128) (auth : AuthWay) (role : _) (account : _) (q : Sess), choyrServed s.modState = true ∧ s.lockedOut ip.toNat = false ∧ s.sec.cryptoFailed = false ∧ s.admission auth = some (role, account) ∧ (List.finRange 16).find? (fun (q : Sess) => s.sessions[q].isNone) = some q) ∧
    (∃ (s : State) (ip : BitVec 128) (auth : AuthWay) (r : _), choyrServed s.modState = true ∧ s.lockedOut ip.toNat = false ∧ s.sec.cryptoFailed = false ∧ s.admission auth = some r ∧ (∀ q : Sess, s.sessions[q].isSome = true)) ∧
    (∃ (s : State) (q : Sess) (x : _), s.sessions[q] = some x ∧ x.lastRecord + 80000 * s.nat 0x1012 3 ≤ s.tick) ∧
    (∃ (s : State) (q : Sess) (x : _), s.sessions[q] = some x ∧ s.tick < x.lastRecord + 80000 * s.nat 0x1012 3) ∧
    (∃ (s : State) (ip : BitVec 128), choyrServed s.modState = true ∧ s.lockedOut ip.toNat = false) ∧
    (∃ (s : State) (ip : BitVec 128), choyrServed s.modState = true ∧ s.lockedOut ip.toNat = true) ∧
    (∃ (s : State) (q : Sess) (x : Session) (dir : Bool), s.sessions[q] = some x ∧ 1048576 ≤ (if dir then x.sent else x.received)) ∧
    (∃ (s : State) (q : Sess) (x : Session) (dir : Bool), s.sessions[q] = some x ∧ (if dir then x.sent else x.received) < 1048576) ∧
    (∃ (s : State) (q : Sess) (n : Fin 32) (sub : Byte) (data : Bytes) (a : _), s.admits q (0xA100 + n.val) sub.toNat (leNat data) = true ∧ (s.nv.accounts[n]).write sub.toNat data = .ok a ∧ s.nv.certifiedMode = false) ∧
    (∃ (s : State) (q : Sess) (n : Fin 32) (sub : Byte) (data : Bytes) (e : Nat), s.admits q (0xA100 + n.val) sub.toNat (leNat data) = true ∧ (s.nv.accounts[n]).write sub.toNat data = .error e ∧ e ≠ 0) :=
  ⟨⟨{ on .ready with nv := { commissioning := true } }, 77, .commission true, .integrator, none, 1, by decide +kernel⟩,
    ⟨{ on .ready with nv := { commissioning := true }, sessions := Vector.replicate 16 (some {}) }, 77, .commission true, (.integrator, none), by decide +kernel⟩,
    ⟨{ on .ready with tick := 4000000000 }, 0, { role := .service }, by decide +kernel⟩,
    ⟨on .ready, 0, { role := .service }, by decide +kernel⟩,
    ⟨{ on .ready with sec := { failures := [(77, 0), (77, 0), (77, 0), (77, 0)] } }, 77, by decide +kernel⟩,
    ⟨{ on .ready with sec := { lockouts := [(77, 9)] } }, 77, by decide +kernel⟩,
    ⟨{ on .ready with sessions := State.reset.sessions.set 0 (some { sent := 1048576 }) }, 0, { sent := 1048576 }, true, by decide +kernel⟩,
    ⟨{ on .ready with sessions := State.reset.sessions.set 0 (some { sent := 1048576 }) }, 0, { sent := 1048576 }, false, by decide +kernel⟩,
    ⟨on .ready .integrator, 0, 4, 2, [2], { role := 2 }, by decide +kernel, of_ok (by decide +kernel), by decide +kernel⟩,
    ⟨on .ready .integrator, 0, 4, 2, [9], 0x0201, by decide +kernel, of_error (by decide +kernel), by decide +kernel⟩⟩

/-- The hypotheses of Obligations.SecurityRows. -/
theorem test_witness_SecurityRows :
    (∃ (s : State) (q : Sess) (off : BitVec 32), s.admits q 0xA010 1 0 = true ∧ s.modState = .ready ∧ s.pkg.state ≠ 1 ∧ s.pkg.state ≠ 2 ∧ off.toNat = s.pkg.received.length) ∧
    (∃ (s : State) (q : Sess) (off : BitVec 32), s.admits q 0xA010 1 0 = true ∧ s.modState = .ready ∧ s.pkg.state = 1 ∧ s.pkg.loadingOwner = q.val ∧ off.toNat = s.pkg.received.length) ∧
    (∃ (s : State) (q : Sess) (off : BitVec 32) (data : Bytes), s.admits q 0xA010 1 0 = true ∧ s.modState = .ready ∧ s.pkg.state = 1 ∧ s.pkg.loadingOwner = q.val ∧ off.toNat = s.pkg.received.length ∧ s.signatureOk (parsePackage (s.pkg.received ++ data)) = false) ∧
    (∃ (s : State) (q : Sess), s.admits q 0xA010 1 0 = true ∧ s.modState ≠ .ready) ∧
    (∃ (s : State) (place : List Nat) (p : Package) (l : List Bytes), s.pkg.loading = some p ∧ s.pkg.held = false ∧ s.openAll p = some l ∧ Config.sha384 l.flatten = p.digest ∧ (mappedPages (p.sections.zip l)).length ≤ place.length) ∧
    (∃ (s : State) (p : Package), s.pkg.loading = some p ∧ s.pkg.held = false) ∧
    (∃ (s : State) (q : Sess) (i : FwImage), s.admits q 0xA030 1 0 = true ∧ s.modState = .ready ∧ s.nv.slots.length = 2 ∧ s.nv.activeSlot < 2 ∧ i.keyOk = true ∧ i.sigOk = true ∧ s.nv.rollbackFloor ≤ i.securityVersion ∧ (i.release = true ∨ s.nv.certifiedMode = false)) ∧
    (∃ (s : State) (q : Sess) (i : FwImage) (st : Nat), s.admits q 0xA030 1 0 = true ∧ s.modState = .ready ∧ ((i.keyOk = false ∨ i.sigOk = false) ∧ st = 0x0501 ∨ i.keyOk = true ∧ i.sigOk = true ∧ i.securityVersion < s.nv.rollbackFloor ∧ st = 0x0203)) ∧
    (∃ (s : State) (q : Sess) (n : _), s.admits q 0xA030 3 1 = true ∧ s.modState = .ready ∧ s.nv.stagedSlot = some n) ∧
    (∃ (s : State) (q : Sess), s.admits q 0xA030 6 1 = true ∧ s.modState = .ready) ∧
    (∃ (s : State) (q : Sess), s.admits q 0xA030 6 1 = true ∧ s.modState = .ready) ∧
    (∃ (s : State), s.modState = .building ∧ s.sec.cryptoFailed = false ∧ s.alone 3 = true) ∧
    (∃ (s : State), s.modState = .ready ∧ s.sec.cryptoFailed = false ∧ s.alone 3 = true ∧ s.supply.resetHeld = none) ∧
    (∃ (s : State) (q : Sess), s.admits q 0xA000 1 1 = true ∧ s.modState = .ready ∧ s.unmetNow = 0) ∧
    (∃ (s : State) (q : Sess), s.admits q 0xA000 1 1 = true ∧ s.unmetNow ≠ 0) ∧
    (∃ (s : State) (q : Sess), s.admits q 0xA000 1 0 = true ∧ s.modState = .ready) ∧
    (∃ (s : State) (low : BitVec 2) (us : Nat), low &&& s.nv.tamperEnable ≠ 0 ∧ 50 ≤ us ∧ s.alone 3 = true ∧ s.supply.resetHeld = none) ∧
    (∃ (s : State) (low : BitVec 2) (us : Nat), (low &&& s.nv.tamperEnable = 0 ∨ us < 50) ∧ s.alone 3 = true) ∧
    (∃ (s : State), s.sec.zeroising.isSome = true) ∧
    (∃ (s : State) (q : Sess), s.admits q 0xA020 3 1 = true) ∧
    (∃ (s : State) (q : Sess) (low : BitVec 2), s.admits q 0xA020 3 1 = true ∧ low ≠ 0) :=
  ⟨⟨(on .ready .integrator), 0, 0, by decide +kernel⟩,
    ⟨{ on .ready .integrator with pkg := { state := 1, loadingOwner := 0, received := [1, 2] } }, 0, 2, by decide +kernel⟩,
    ⟨{ on .ready .integrator with pkg := { state := 1, loadingOwner := 0, received := [1, 2] } }, 0, 2, [1, 2], by decide +kernel⟩,
    ⟨on .building .integrator, 0, by decide +kernel⟩,
    ⟨{ on .ready with pkg := { loading := some { digest := Config.sha384 [] } } }, [], { digest := Config.sha384 [] }, [], rfl, rfl, rfl, rfl, by decide⟩,
    ⟨{ on .ready with pkg := { loading := some {} } }, {}, by decide +kernel⟩,
    ⟨{ on .ready .integrator with nv := { slots := [{ keyOk := true, sigOk := true, securityVersion := 5, release := true }, { keyOk := true, sigOk := true, securityVersion := 5, release := true }], activeSlot := 0 } }, 0, { keyOk := true, sigOk := true, securityVersion := 5, release := true }, by decide +kernel⟩,
    ⟨{ on .ready .integrator with nv := { slots := [{ keyOk := true, sigOk := true, securityVersion := 5, release := true }, { keyOk := true, sigOk := true, securityVersion := 5, release := true }], activeSlot := 0 } }, 0, { keyOk := true, sigOk := false, securityVersion := 5, release := true }, 0x0501, by decide +kernel⟩,
    ⟨{ on .ready .integrator with nv := { slots := [{ keyOk := true, sigOk := true, securityVersion := 5, release := true }, { keyOk := true, sigOk := true, securityVersion := 5, release := true }], activeSlot := 0, stagedSlot := some 1 } }, 0, 1, by decide +kernel⟩,
    ⟨(on .ready .integrator), 0, by decide +kernel⟩,
    ⟨(on .ready .integrator), 0, by decide +kernel⟩,
    ⟨on .building, by decide +kernel⟩,
    ⟨on .ready, by decide +kernel⟩,
    ⟨{ on .ready .integrator with nv := { slots := [{ keyOk := true, sigOk := true, securityVersion := 5, release := true }, { keyOk := true, sigOk := true, securityVersion := 5, release := true }], activeSlot := 0, commissioning := false, pskEnable := false, domainKey := some [1], tamperEnable := 1, accounts := State.reset.nv.accounts.set 3 { enabled := true, role := 2, fingerprint := [1] }, trustedCa := State.reset.nv.trustedCa.set 0 [1] } }, 0, by decide +kernel⟩,
    ⟨(on .ready .integrator), 0, by decide +kernel⟩,
    ⟨(on .ready .integrator), 0, by decide +kernel⟩,
    ⟨{ on .ready .integrator with nv := { tamperEnable := 1 } }, 1, 50, by decide +kernel⟩,
    ⟨{ on .ready .integrator with nv := { tamperEnable := 1 } }, 1, 49, by decide +kernel⟩,
    ⟨{ on .ready .integrator with sec := { zeroising := some 5 } }, by decide +kernel⟩,
    ⟨(on .ready .integrator), 0, by decide +kernel⟩,
    ⟨(on .ready .integrator), 0, 2, by decide +kernel⟩⟩

/-- The hypotheses of Obligations.ProfileRows. -/
theorem test_witness_ProfileRows :
    (∃ (s : State) (q : Sess) (v : Byte), s.admits q 0x1F00 4 v.toNat = true ∧ storeAllowed s.modState = true ∧ v.toNat ≤ 3 ∧ s.profileBusy = 0) ∧
    (∃ (s : State) (q : Sess) (v : Byte), s.admits q 0x1F00 4 v.toNat = true ∧ s.modState = .building) ∧
    (∃ (s : State), s.profileBusy = 1) ∧
    (∃ (s : State) (q : Sess) (v : Byte) (p : Profile), s.admits q 0x1F00 3 v.toNat = true ∧ s.modState = .ready ∧ s.profileBusy = 0 ∧ v.toNat ≤ 3 ∧ s.profile v.toNat = some p) ∧
    (∃ (s : State) (q : Sess) (v : Byte), s.admits q 0x1F00 3 v.toNat = true ∧ s.modState = .ready ∧ s.profileBusy = 0 ∧ v.toNat ≤ 3 ∧ s.profile v.toNat = none) ∧
    (∃ (s : State) (q : Sess), s.admits q 0x1F00 7 1 = true ∧ s.modState = .ready ∧ s.profileBusy = 0) :=
  ⟨⟨on .ready, 0, 2, by decide +kernel⟩,
    ⟨on .building, 0, 2, by decide +kernel⟩,
    ⟨{ on .ready with profileBusy := 1, profileTarget := 2 }, by decide +kernel⟩,
    ⟨{ on .ready .integrator with nv := { profileA := [(2, {})] } }, 0, 2, {}, by decide +kernel⟩,
    ⟨(on .ready .integrator), 0, 2, by decide +kernel⟩,
    ⟨(on .ready .integrator), 0, by decide +kernel⟩⟩

/-- The hypotheses of Obligations.StartupRows. -/
theorem test_witness_StartupRows :
    (∃ (s : State) (a : Nat) (b : Nat) (v : Nat), s.modState = .off ∧ 20400 < max a b ∧ 2000 ≤ v) ∧
    (∃ (s : State) (a : Nat) (b : Nat) (v : Nat), s.modState = .off ∧ 20400 < max a b ∧ v < 2000) ∧
    (∃ (s : State) (b : Nat), s.modState = .reset ∧ 36000 ≤ b ∧ s.supply.pllLocked = true ∧ s.supply.inputsCut = false) ∧
    (∃ (s : State) (b : Nat) (hi : Bool), s.modState = .reset ∧ (b < 36000 ∨ hi = false)) ∧
    (∃ (s : State) (slots : List FwImage), s.modState = .boot ∧ s.nv.trialSlot = none ∧ s.nv.activeSlot ≤ 1 ∧ (slots[s.nv.activeSlot]?).any s.accepts = true) ∧
    (∃ (s : State) (slots : List FwImage), s.modState = .boot ∧ s.nv.trialSlot = none ∧ (∀ i ∈ slots, s.accepts i = false) ∧ s.supply.resetHeld = none) ∧
    (∃ (s : State) (slots : List FwImage), s.modState = .boot ∧ s.nv.trialSlot = none ∧ (∀ i ∈ slots, s.accepts i = false)) ∧
    (∃ (s : State) (r : SelfTest) (n : Nat) (p : Profile), s.modState = .selftest ∧ r.gateOffOk = true ∧ r.cryptoOk = true ∧ r.entropyOk = true ∧ s.sec.cryptoFailed = false ∧ (∀ c : ChanId, s.dram[c].trained = 1) ∧ r.moduleFactory = true ∧ s.nv.tamperPending = false ∧ s.profileTarget = n ∧ n < 4 ∧ s.chosenProfile r n = some p) ∧
    (∃ (s : State) (r : SelfTest), s.modState = .selftest ∧ r.gateOffOk = false ∧ s.nv.tamperPending = false ∧ s.supply.resetHeld = none) :=
  ⟨⟨{ State.reset with modState := .off }, 24000, 0, 3000, by decide +kernel⟩,
    ⟨{ State.reset with modState := .off }, 24000, 0, 1999, by decide +kernel⟩,
    ⟨{ State.reset with modState := .reset, supply := { pllLocked := true } }, 36000, by decide +kernel⟩,
    ⟨{ State.reset with modState := .reset }, 35999, true, by decide +kernel⟩,
    ⟨{ State.reset with modState := .boot }, [{ keyOk := true, sigOk := true, securityVersion := 5, release := true }], by decide +kernel⟩,
    ⟨{ State.reset with modState := .boot }, [{ keyOk := true, sigOk := false, securityVersion := 5, release := true }], by decide +kernel⟩,
    ⟨{ State.reset with modState := .boot }, [{ keyOk := true, sigOk := false, securityVersion := 5, release := true }], by decide +kernel⟩,
    ⟨{ State.reset with modState := .selftest, profileTarget := 2, dram := Vector.replicate 2 { trained := 1 }, nv := { profileA := [(2, {})] } }, { gateOffOk := true, cryptoOk := true, entropyOk := true, headA := 0, headB := 0, moduleA := false, moduleB := false, moduleFactory := true, profileA := 15, profileB := 15, profDirBad := 255, readyMs := 9 }, 2, {}, by decide +kernel⟩,
    ⟨{ State.reset with modState := .selftest }, { gateOffOk := false, cryptoOk := true, entropyOk := true, headA := 0, headB := 0, moduleA := false, moduleB := false, moduleFactory := true, profileA := 15, profileB := 15, profDirBad := 255, readyMs := 9 }, by decide +kernel⟩⟩

/-- The hypotheses of Obligations.ResetRows. -/
theorem test_witness_ResetRows :
    (∃ (s : State) (ns : Nat), s.alone 1 = true ∧ resettable s.modState = true ∧ 1000 ≤ ns ∧ s.supply.copierPending = none ∧ s.modState ≠ .building ∧ s.modState ≠ .paused) ∧
    (∃ (s : State) (ns : Nat), s.alone 1 = true ∧ s.modState = .building ∧ 1000 ≤ ns ∧ s.supply.copierPending = none) ∧
    (∃ (s : State) (ns : Nat), s.alone 1 = true ∧ ns < 1000) ∧
    (∃ (s : State) (r : ResumeRec) (code : Nat), s.supply.copierPending = some r ∧ s.supply.resetHeld = some code) ∧
    (∃ (s : State) (r : ResumeRec), s.supply.copierPending = some r ∧ s.supply.resetHeld = none) ∧
    (∃ (s : State), s.alone 1 = true ∧ resettable s.modState = true ∧ 2 ≤ s.supply.failedCores ∧ s.supply.copierPending = none ∧ s.modState ≠ .building ∧ s.modState ≠ .paused) ∧
    (∃ (s : State), s.modState = .ready ∧ s.supply.failedCores = 0 ∧ s.supply.firstFault = none) ∧
    (∃ (s : State) (k : _), s.modState = .building ∧ s.supply.failedCores = 0 ∧ s.supply.firstFault = some k ∧ k ≠ 4 ∧ s.supply.resetHeld = none) ∧
    (∃ (s : State) (ns : Nat), s.alone 1 = true ∧ s.modState ≠ .off ∧ s.modState ≠ .thermalOff ∧ 2000 ≤ ns) ∧
    (∃ (s : State), s.supply.pllLocked = false) ∧
    (∃ (s : State), s.supply.pllLocked = true) ∧
    (∃ (s : State) (mv : Nat), mv < 18000 ∧ s.supply.vioGood = true ∧ s.modState ≠ .off) ∧
    (∃ (mv : Nat), 18000 ≤ mv) ∧
    (∃ (s : State), s.modState ≠ .off) :=
  ⟨⟨on .ready, 1000, by decide +kernel⟩,
    ⟨on .building, 1000, by decide +kernel⟩,
    ⟨on .building, 999, by decide +kernel⟩,
    ⟨{ on .paused with supply := { copierPending := some {}, resetHeld := some 4, copierUntil := some 9 } }, {}, 4, by decide +kernel⟩,
    ⟨{ on .paused with supply := { copierPending := some {}, copierUntil := some 9 } }, {}, by decide +kernel⟩,
    ⟨{ on .ready with supply := { failedCores := 2 } }, by decide +kernel⟩,
    ⟨on .ready, by decide +kernel⟩,
    ⟨{ on .building with supply := { firstFault := some 1 } }, 1, by decide +kernel⟩,
    ⟨on .building, 2000, by decide +kernel⟩,
    ⟨on .ready, by decide +kernel⟩,
    ⟨{ on .ready with supply := { pllLocked := true } }, by decide +kernel⟩,
    ⟨{ on .ready with supply := { vioGood := true } }, 17999, by decide +kernel⟩,
    ⟨18000, by decide +kernel⟩,
    ⟨on .ready, by decide +kernel⟩⟩

/-- The hypotheses of Obligations.TimeRows. -/
theorem test_witness_TimeRows :
    (∃ (s : State) (p : Fin 3) (o : Nat) (c : Int) (i : Nat) (new : Bool) (off : Int), off = s.ptpOffset p o c i ∧ s.ptpPort p = true ∧ s.noStep = false ∧ (new = true ∨ (s.nat 0x8000 7 : Int) < off.natAbs) ∧ off.natAbs ≤ 2147483647 ∧ s.time.status ≠ 0 ∧ 0 ≤ (s.time.now : Int) - off * nsUnit) ∧
    (∃ (s : State) (p : Fin 3) (o : Nat) (c : Int) (i : Nat) (off : Int), off = s.ptpOffset p o c i ∧ s.ptpPort p = true ∧ s.time.firstOffset = false ∧ (off.natAbs : Int) ≤ s.nat 0x8000 7 ∧ off.natAbs ≤ s.nat 0x8000 9 ∧ s.time.status ≠ 0) ∧
    (∃ (s : State) (p : Fin 3), s.ptpPort p = true ∧ s.peerDelay p = true) ∧
    (∃ (s : State) (p : Fin 3), s.ptpPort p = true ∧ s.peerDelay p = false) ∧
    (∃ (s : State) (p : Fin 3), s.ptpPort p = true ∧ s.peerDelay p = true) ∧
    (∃ (s : State) (p : Fin 3), s.ptpPort p = true) ∧
    (∃ (s : State) (res : Nat), s.time.role = 3 ∧ s.time.forwarded = [] ∧ s.time.twoSteps = [] ∧ res ≤ 10000000 * 65536) ∧
    (∃ (s : State) (res : Nat), s.time.role = 3 ∧ s.time.forwarded = [] ∧ s.time.twoSteps = [] ∧ res ≤ 10000000 * 65536 ∧ s.time.ports[0].mechanism ≠ 2) ∧
    (∃ (s : State) (res : Nat), s.time.role = 3 ∧ s.time.forwarded = [] ∧ s.time.twoSteps = [] ∧ res ≤ 10000000 * 65536 ∧ s.time.ports[0].mechanism ≠ 2) ∧
    (∃ (s : State) (src : Nat) (n : BitVec 16) (res : Nat) (x : Int), s.time.role = 3 ∧ s.time.forwarded = [] ∧ s.time.twoSteps = [(src, n.toNat, x)] ∧ res ≤ 10000000 * 65536) ∧
    (∃ (s : State) (res : Nat), s.time.role = 3 ∧ 10000000 * 65536 < res) ∧
    (∃ (s : State) (p : Fin 3) (d : Nat), s.time.ports[p].receiptTimer = some d ∧ d ≤ s.tick) ∧
    (∃ (s : State) (d : Nat), s.time.syncTimer = some d ∧ d ≤ s.tick) :=
  ⟨⟨{ on .ready with tick := 900, time := { role := 3, status := 2, now := 8000 * nsUnit } }, 0, 100, 65536, 800, true, 163, by decide +kernel⟩,
    ⟨{ on .ready with tick := 900, time := { role := 3, status := 2, firstOffset := false, goodSyncs := 15, now := 8000 * nsUnit } }, 0, 100, 65536, 650, 69, by decide +kernel⟩,
    ⟨{ on .ready with tick := 900, time := { role := 2, status := 2, ports := State.reset.time.ports.set 0 { enabled := true, mechanism := 2 } } }, 0, by decide +kernel⟩,
    ⟨{ on .ready with tick := 900, time := { role := 2, status := 2, lastSync := (65536000, 655360000), ports := State.reset.time.ports.set 0 { enabled := true, mechanism := 1 } } }, 0, by decide +kernel⟩,
    ⟨{ on .ready with tick := 900, time := { role := 2, status := 2, ports := State.reset.time.ports.set 0 { enabled := true, mechanism := 2 } } }, 0, by decide +kernel⟩,
    ⟨{ on .ready with tick := 900, time := { role := 3, grandmaster := 4 } }, 0, by decide +kernel⟩,
    ⟨{ on .ready with tick := 900, time := { role := 3 } }, 70000, by decide +kernel⟩,
    ⟨{ on .ready with tick := 900, time := { role := 3, ports := State.reset.time.ports.set 0 { mechanism := 1 } } }, 70000, by decide +kernel⟩,
    ⟨{ on .ready with tick := 900, time := { role := 3, ports := State.reset.time.ports.set 0 { mechanism := 1 } } }, 70000, by decide +kernel⟩,
    ⟨{ on .ready with tick := 900, time := { role := 3, twoSteps := [(5, 6, 70000)] } }, 5, 6, 0, 70000, by decide +kernel⟩,
    ⟨{ on .ready with tick := 900, time := { role := 3 } }, 655360000001, by decide +kernel⟩,
    ⟨{ on .ready with tick := 900, time := { ports := State.reset.time.ports.set 0 { receiptTimer := some 900 } } }, 0, 900, by decide +kernel⟩,
    ⟨{ on .ready with tick := 900, time := { status := 3, syncTimer := some 900 } }, 900, by decide +kernel⟩⟩

/-- The hypotheses of Obligations.TimerRows. -/
theorem test_witness_TimerRows :
    (∃ (s : State), s.time.status ≠ 0 ∧ s.time.lastSecond < s.time.now / secUnit) ∧
    (∃ (s : State), s.time.status = 0 ∧ s.time.tickAnchorAt + 80000000 ≤ s.tick) ∧
    (∃ (s : State) (d : _), s.time.ppsUntil = some d ∧ d ≤ s.tick) ∧
    (∃ (s : State), s.supply.excluded.getLsbD 18 = false ∧ -50000 ≤ s.supply.oscTrim ∧ s.supply.oscTrim ≤ 50000) ∧
    (∃ (s : State), s.supply.excluded.getLsbD 18 = true) ∧
    (∃ (s : State) (i : Fin 2) (lv : Bool), s.time.status ≠ 0 ∧ s.nat (0x8021 + i.val) 1 = (if lv then 1 else 2) ∧ s.time.latches.length = 2 ∧ (s.time.latches.getD i.val []).length < 16) ∧
    (∃ (s : State) (i : Fin 2), s.time.status ≠ 0 ∧ s.nat (0x8021 + i.val) 1 = 3 ∧ 16 ≤ (s.time.latches.getD i.val []).length) ∧
    (∃ (s : State) (q : Sess) (x : Session), s.served q = true ∧ s.sessions[q] = some x ∧ s.modState ≠ .selftest) :=
  ⟨⟨{ on .ready with tick := 900, time := { status := 2, now := 5 * secUnit + 7, lastSecond := 4, anchor := some { seconds := 4 } } }, by decide +kernel⟩,
    ⟨{ on .ready with tick := 80000000 }, by decide +kernel⟩,
    ⟨{ on .ready with tick := 900, time := { ppsHigh := true, ppsUntil := some 900 } }, 900, by decide +kernel⟩,
    ⟨on .ready, by decide +kernel⟩,
    ⟨{ on .ready with supply := { excluded := 1 <<< 18 } }, by decide +kernel⟩,
    ⟨(({ on .ready with tick := 900, time := { status := 2, now := 99 } } : State)).put 0x8022 1 1, 1, true, by decide +kernel⟩,
    ⟨(({ on .ready with tick := 900, time := { status := 2, latches := [[], List.replicate 16 (5, true)] } } : State)).put 0x8022 1 3, 1, by decide +kernel⟩,
    ⟨{ on .ready with tick := 900, time := { latches := [[], [(5, true)]] } }, 0, { role := .service }, by decide +kernel⟩⟩

/-- The hypotheses of Obligations.DramRows. -/
theorem test_witness_DramRows :
    (∃ (s : State) (c : ChanId), s.memoryOn c = true ∧ s.dram[c].postponed = 0 ∧ s.dram[c].interval = 7800 ∧ s.tick = s.dram[c].lastRefresh + 624 ∧ (∀ r ∈ s.dram[c].queue, r.cls ≠ 0)) ∧
    (∃ (s : State) (c : ChanId), s.memoryOn c = true ∧ s.dram[c].postponed = 0 ∧ s.dram[c].interval = 7800 ∧ s.tick = s.dram[c].lastRefresh + 624 ∧ (∃ r ∈ s.dram[c].queue, r.cls = 0)) ∧
    (∃ (s : State) (c : ChanId), s.memoryOn c = true ∧ s.dram[c].postponed = 5 ∧ s.tick = s.dram[c].lastRefresh) ∧
    (∃ (s : State) (c : ChanId), s.memoryOn c = true ∧ s.dram[c].zqAt + 10240000 ≤ s.tick) ∧
    (∃ (s : State) (c : ChanId), s.memoryOn c = true ∧ 8192 ≤ s.dram[c].refreshes) ∧
    (∃ (s : State) (c : ChanId) (b : Fin 16) (row : BitVec 16) (n : _), s.memoryOn c = true ∧ s.dram[c].counters = [(b.val, row.toNat, n)] ∧ s.nat 0xC000 4 ≤ n ∧ s.nat 0xC000 5 = 1 ∧ s.dram[c].openRows = [] ∧ 0 < row.toNat ∧ row.toNat < 65535 ∧ s.nat (0xC010 + c.val) 9 < 4294967295) ∧
    (∃ (s : State) (c : ChanId), s.memoryOn c = true ∧ s.modState ≠ .holdup ∧ s.poisoned.contains (lineOf s.mapOrder c.val s.dram[c].scrubLine) = false ∧ s.dram[c].scrubLine + 1 < channelLines) ∧
    (∃ (s : State) (c : ChanId), s.memoryOn c = true ∧ s.modState ≠ .holdup ∧ s.poisoned.contains (lineOf s.mapOrder c.val s.dram[c].scrubLine) = true ∧ s.dram[c].scrubLine + 1 < channelLines) ∧
    (∃ (s : State) (c : ChanId) (d : Fin 18), s.dram[c].marked = none ∧ s.nat 0xC000 6 ≤ s.errorLines c d.val) ∧
    (∃ (s : State) (q : Sess) (c : ChanId), s.admits q (0xC010 + c.val) 8 255 = true) ∧
    (∃ (s : State) (q : Sess) (c : ChanId) (v : Byte), v ≠ 0xFF ∧ s.admits q (0xC010 + c.val) 8 v.toNat = true) :=
  ⟨⟨{ on .ready with tick := 20000000, dram := State.reset.dram.set 1 { trained := 1, lastRefresh := 19999376 } }, 1, by decide +kernel⟩,
    ⟨{ on .ready with tick := 20000000, dram := State.reset.dram.set 1 { trained := 1, lastRefresh := 19999376, queue := [{ cls := 0 }] } }, 1, by decide +kernel⟩,
    ⟨{ on .ready with tick := 20000000, dram := State.reset.dram.set 1 { trained := 1, lastRefresh := 20000000, postponed := 5 } }, 1, by decide +kernel⟩,
    ⟨{ on .ready with tick := 20000000, dram := State.reset.dram.set 1 { trained := 1, zqAt := 4 } }, 1, by decide +kernel⟩,
    ⟨{ on .ready with tick := 20000000, dram := State.reset.dram.set 1 { trained := 1, refreshes := 8192 } }, 1, by decide +kernel⟩,
    ⟨{ on .ready with tick := 20000000, dram := State.reset.dram.set 1 { trained := 1, counters := [(3, 77, 900000)] } }, 1, 3, 77, 900000, by decide +kernel⟩,
    ⟨{ on .ready with tick := 20000000, dram := State.reset.dram.set 1 { trained := 1, scrubLine := 5 } }, 1, by decide +kernel⟩,
    ⟨{ on .ready with tick := 20000000, dram := State.reset.dram.set 1 { trained := 1, scrubLine := 5 }, poisoned := [lineOf State.reset.mapOrder 1 5] }, 1, by decide +kernel⟩,
    ⟨({ on .ready with tick := 20000000, dram := State.reset.dram.set 1 { trained := 1, errLines := (List.range 16).map fun i => (4, i, 20000000) } } : State).put 0xC000 6 16, 1, 4, by decide +kernel⟩,
    ⟨on .ready, 0, 1, by decide +kernel⟩,
    ⟨on .ready, 0, 1, 9, by decide +kernel⟩⟩

/-- The hypotheses of Obligations.MemoryRequestRow. -/
theorem test_witness_MemoryRequestRow :
    (∃ (a : Nat), memSize ≤ a) ∧
    (∃ (s : State) (c : ChanId) (a : Nat), a < memSize ∧ a % 64 = 0 ∧ (mapAddress s.mapOrder a).1 = c.val ∧ s.memoryOn c = true ∧ s.modState ≠ .holdup ∧ s.dram[c].queue = [] ∧ s.dram[c].busyUntil ≤ s.tick ∧ s.poisoned.contains (a / 64) = false) ∧
    (∃ (s : State) (c : ChanId) (a : Nat) (b : Bytes), a < memSize ∧ a % 64 = 0 ∧ (mapAddress s.mapOrder a).1 = c.val ∧ s.memoryOn c = true ∧ s.modState ≠ .holdup ∧ s.dram[c].queue = [] ∧ s.dram[c].busyUntil ≤ s.tick ∧ s.poisoned.contains (a / 64) = false ∧ b.length = 64) ∧
    (∃ (s : State) (c : ChanId) (m : Requester) (a : Nat), a < memSize ∧ a % 64 = 0 ∧ (mapAddress s.mapOrder a).1 = c.val ∧ s.memoryOn c = true ∧ s.modState ≠ .holdup ∧ s.dram[c].queue = [] ∧ s.dram[c].busyUntil ≤ s.tick ∧ s.poisoned.contains (a / 64) = true ∧ m = .unit .fetch) ∧
    (∃ (s : State) (c : ChanId) (a : Nat), a < memSize ∧ (mapAddress s.mapOrder a).1 = c.val ∧ s.memoryOn c = false) :=
  ⟨⟨memSize, by decide +kernel⟩,
    ⟨{ on .ready with dram := Vector.replicate 2 { trained := 1 } }, ⟨(mapAddress State.reset.mapOrder 64).1, by decide +kernel⟩, 64, by decide +kernel⟩,
    ⟨{ on .ready with dram := Vector.replicate 2 { trained := 1 } }, ⟨(mapAddress State.reset.mapOrder 64).1, by decide +kernel⟩, 64, List.replicate 64 7, by decide +kernel⟩,
    ⟨{ on .ready with dram := Vector.replicate 2 { trained := 1 } , poisoned := [1] }, ⟨(mapAddress State.reset.mapOrder 64).1, by decide +kernel⟩, .unit .fetch, 64, by decide +kernel⟩,
    ⟨on .ready, ⟨(mapAddress State.reset.mapOrder 64).1, by decide +kernel⟩, 64, by decide +kernel⟩⟩

/-- The hypotheses of Obligations.AddressMapInjective. -/
theorem test_witness_AddressMapInjective : ∃ (order : _) (a : _) (b : _), order ≤ 3 ∧ a < memSize ∧ b < memSize ∧ a % 64 = 0 ∧ b % 64 = 0 ∧ mapAddress order a = mapAddress order b ∧ mapColumn order a = mapColumn order b :=
  ⟨3, 64, 64, by decide +kernel⟩

/-- The hypotheses of Obligations.TranslationRows. -/
theorem test_witness_TranslationRows :
    (∃ (s : State) (sp : SpaceId) (m : Master) (va : BitVec 48) (w : Bool), s.tlb = [] ∧ s.sharedTlb = [] ∧ walk s.mem s.tableBase[sp] va.toNat w (masterCode m == 2) = .error (1, 1) ∧ s.faults = [] ∧ s.faultWait = []) ∧
    (∃ (s : State) (a : Nat), a < memSize ∧ a % 8 = 0 ∧ s.faults = []) ∧
    (∃ (s : State) (sp : SpaceId) (page : BitVec 32) (f : FaultRec), s.faults = [f] ∧ s.faultWait = [] ∧ f.master = 9 ∧ f.space = sp.val ∧ f.address / 65536 = page.toNat ∧ (∃ e, walk s.mem s.tableBase[sp] f.address f.write false = .ok e) ∧ s.pkg.inForce = none) ∧
    (∃ (s : State) (f : FaultRec), s.faults = [f] ∧ s.faultWait = [] ∧ f.master = 9 ∧ f.deadline ≤ s.tick) :=
  ⟨⟨on .ready, 5, .dma, 65536, true, by decide +kernel, by decide +kernel, of_error (by decide +kernel), by decide +kernel, by decide +kernel⟩,
    ⟨on .ready, 64, by decide +kernel⟩,
    ⟨{ on .ready with mem := tables, tableBase := State.reset.tableBase.set 5 65536, faults := [{ master := 9, space := 5, address := 0 }] }, 5, 0, { master := 9, space := 5, address := 0 }, rfl, rfl, rfl, rfl, rfl, ⟨_, of_ok (x := walk tables 65536 0 false false) (a := 262159) (by decide +kernel)⟩, rfl⟩,
    ⟨{ on .ready with faults := [{ master := 9 }] }, { master := 9 }, by decide +kernel⟩⟩

/-- The hypotheses of Obligations.JobRows. -/
theorem test_witness_JobRows :
    (∃ (s : State) (q : Sess) (d : Bytes), s.admits q 0x3D10 1 0 = true ∧ d.length = 32 ∧ leAt d 0x14 1 = 1 ∧ leAt d 0x15 1 ≤ 63 ∧ 1 ≤ leAt d 0x10 4 ∧ leAt d 0x10 4 ≤ 268435456 ∧ overlaps (leAt d 0 6) (leAt d 0x10 4) (leAt d 8 6) (leAt d 0x10 4) = false ∧ (s.dma.filter fun x => x.space == leAt d 0x15 1).length < 64) ∧
    (∃ (s : State) (q : Sess) (d : Bytes), s.admits q 0x3D10 1 0 = true ∧ d.length = 32 ∧ leAt d 0x14 1 ≠ 1 ∧ leAt d 0x14 1 ≠ 2) ∧
    (∃ (s : State) (sp : SpaceId) (j : DmaJob) (t' : _) (pa : Bytes), s.dma = [j] ∧ j.space = sp.val ∧ j.held = false ∧ flashAllowed s.modState = true ∧ j.op = 2 ∧ j.length - j.progress ≤ 4096 ∧ j.progress < j.length ∧ s.writeRange .dma j.space 3 (j.destination + j.progress) (fillBytes j.source (j.length - j.progress)) = (t', .ok pa)) ∧
    (∃ (s : State) (q : Sess) (d : Bytes), s.admits q 0xD000 1 0 = true ∧ d.length = 48 ∧ jobFieldsOk d = true ∧ (leAt d 0x1D 1 = 1 ∨ highEffort s.modState = true) ∧ jobBound (leAt d 0x10 4) (leAt d 0x18 4) ≤ leAt d 0x14 4 ∧ overlaps (leAt d 0 6) (leAt d 0x10 4) (leAt d 8 6) (leAt d 0x14 4) = false ∧ s.jobs.length < 16) ∧
    (∃ (s : State) (q : Sess) (d : Bytes), s.admits q 0xD000 1 0 = true ∧ d.length = 48 ∧ jobFieldsOk d = true ∧ leAt d 0x1D 1 = 1 ∧ leAt d 0x14 4 < jobBound (leAt d 0x10 4) (leAt d 0x18 4)) ∧
    (∃ (s : State) (q : Sess) (tag : BitVec 32) (j : CompJob), s.admits q 0xD000 5 tag.toNat = true ∧ s.jobs.find? (fun j => j.tag == tag.toNat) = some j) ∧
    (∃ (s : State) (j : CompJob) (b : Bytes) (t' : _) (u : State) (w : Bytes), s.jobs = [j] ∧ j.held = false ∧ jobsRun s.modState = true ∧ j.mode = 3 ∧ j.progress = 0 ∧ 0 < j.sourceLength ∧ j.sourceLength ≤ j.blockSize ∧ b.length = j.sourceLength ∧ s.readRange .compression j.space 3 j.source j.sourceLength = (t', .ok b) ∧ selfCheck (storedForm b) b = true ∧ t'.writeRange .compression j.space 3 (j.destination + j.outBytes) (chunkBytes (chunkFlags false true 0) b (storedForm b)) = (u, .ok w)) :=
  ⟨⟨on .ready .integrator, 0, (leBytes 8 0 ++ leBytes 8 65536 ++ leBytes 4 4096 ++ [1, 5] ++ leBytes 6 0 ++ leBytes 4 77 : Bytes), by decide +kernel⟩,
    ⟨on .ready .integrator, 0, (leBytes 8 0 ++ leBytes 8 65536 ++ leBytes 4 4096 ++ [3, 5] ++ leBytes 6 0 ++ leBytes 4 77 : Bytes), by decide +kernel⟩,
    ⟨{ on .ready with dma := [{ op := 2, space := 5, length := 64, source := 7, destination := 65536 }], tlb := [page .dma 1 7] }, 5, { op := 2, space := 5, length := 64, source := 7, destination := 65536 }, (({ on .ready with dma := [{ op := 2, space := 5, length := 64, source := 7, destination := 65536 }], tlb := [page .dma 1 7] } : State).writeRange .dma 5 3 65536 (fillBytes 7 64)).1, [], by decide +kernel, by decide +kernel, by decide +kernel, by decide +kernel, by decide +kernel, by decide +kernel, by decide +kernel, of_read (by decide +kernel)⟩,
    ⟨on .ready .integrator, 0, (leBytes 8 0 ++ leBytes 8 65536 ++ leBytes 4 4096 ++ leBytes 4 8192 ++ leBytes 4 4096 ++ [3, 1, 5] ++ leBytes 13 0 ++ leBytes 4 77 : Bytes), by decide +kernel⟩,
    ⟨on .ready .integrator, 0, (leBytes 8 0 ++ leBytes 8 65536 ++ leBytes 4 4096 ++ leBytes 4 4096 ++ leBytes 4 4096 ++ [3, 1, 5] ++ leBytes 13 0 ++ leBytes 4 77 : Bytes), by decide +kernel⟩,
    ⟨{ on .ready .integrator with jobs := [{ tag := 77 }] }, 0, 77, { tag := 77 }, by decide +kernel⟩,
    ⟨{ on .ready with jobs := [{ mode := 3, space := 5, sourceLength := 4, source := 65536, destination := 131072 }], tlb := [page .compression 1 7, page .compression 2 8] }, { mode := 3, space := 5, sourceLength := 4, source := 65536, destination := 131072 }, ([0, 0, 0, 0] : Bytes), (({ on .ready with jobs := [{ mode := 3, space := 5, sourceLength := 4, source := 65536, destination := 131072 }], tlb := [page .compression 1 7, page .compression 2 8] } : State).readRange .compression 5 3 65536 4).1, (((({ on .ready with jobs := [{ mode := 3, space := 5, sourceLength := 4, source := 65536, destination := 131072 }], tlb := [page .compression 1 7, page .compression 2 8] } : State).readRange .compression 5 3 65536 4).1).writeRange .compression 5 3 131072 (chunkBytes (chunkFlags false true 0) ([0, 0, 0, 0] : Bytes) (storedForm ([0, 0, 0, 0] : Bytes)))).1, [], by decide +kernel, by decide +kernel, by decide +kernel, by decide +kernel, by decide +kernel, by decide +kernel, by decide +kernel, by decide +kernel, of_read (by decide +kernel), by decide +kernel, of_read (by decide +kernel)⟩⟩

/-- The hypotheses of Obligations.RecorderRows. -/
theorem test_witness_RecorderRows :
    (∃ (s : State) (r : EvtRec) (l : List EvtRec), s.evtQ = r :: l ∧ s.recorderOn = true ∧ recordsSize s.nv.staging + recordLen r.type ≤ stagingSize) ∧
    (∃ (s : State) (b : FlashBlock), s.mayProgram = true ∧ pageRoom ≤ recordsSize s.nv.staging ∧ s.nv.ring.getLast? = some b ∧ b.pages < 15) ∧
    (∃ (s : State) (b : FlashBlock), s.mayProgram = true ∧ s.flushDue = true ∧ s.nv.ring.getLast? = some b ∧ b.pages = 15) ∧
    (∃ (s : State) (b : FlashBlock) (c : FlashBlock) (l : List FlashBlock), flashAllowed s.modState = true ∧ s.nv.deferred = [] ∧ s.nv.eraseDue = true ∧ s.nv.ring = b :: c :: l ∧ s.defers b = false ∧ b.records ≠ []) ∧
    (∃ (s : State) (q : Sess) (x : Session), s.admits q 0xB010 4 1 = true ∧ s.sessions[q] = some x ∧ x.snap.isOpen = false ∧ s.openSnaps.length < 4 ∧ x.snap.fromSeq ≤ x.snap.toSeq ∧ x.snap.fromSeq ≤ s.nv.newest) ∧
    (∃ (s : State) (q : Sess) (x : Session), s.admits q 0xB010 4 1 = true ∧ s.sessions[q] = some x ∧ x.snap.isOpen = false ∧ 4 ≤ s.openSnaps.length) ∧
    (∃ (s : State) (q : Sess) (x : Session), s.admits q 0xB010 4 0 = true ∧ s.sessions[q] = some x) ∧
    (∃ (s : State) (q : Sess) (x : Session), s.sessions[q] = some x ∧ x.snap.isOpen = true ∧ x.snap.openedAt + 80000000 * s.nat 0xB010 9 ≤ s.tick) ∧
    (∃ (s : State) (r : LogRec), s.mirrorHeld = false ∧ s.mirrorNext ≠ 0 ∧ s.memoryOn 0 = true ∧ s.memoryOn 1 = true ∧ flashAllowed s.modState = true ∧ s.allRecords.find? (fun r => r.sequence == s.mirrorNext) = some r ∧ recordsSize (s.mirror ++ [r]) ≤ s.nv.mirrorSize * 1048576) :=
  ⟨⟨{ on .ready with evtQ := [{ type := 0xB001 }] }, { type := 0xB001 }, [], by decide +kernel⟩,
    ⟨{ on .ready with nv := { staging := [{ sequence := 1, length := 16000 }, { sequence := 1, length := 16000 }] } }, {}, by decide +kernel⟩,
    ⟨{ on .ready with tick := 3000000000, nv := { staging := [{ sequence := 1, length := 16000 }], ring := [{ pages := 15 }] } }, { pages := 15 }, by decide +kernel⟩,
    ⟨{ on .ready with nv := { eraseDue := true, ring := [{ records := [{ sequence := 1, length := 16000 }] }, {}] } }, { records := [{ sequence := 1, length := 16000 }] }, {}, [], by decide +kernel⟩,
    ⟨{ on .ready with nv := { newest := 5 } }, 0, { role := .service }, by decide +kernel⟩,
    ⟨{ State.reset with modState := .ready, sessions := Vector.ofFn fun (i : Fin 16) => if i.val = 0 then some { role := .service } else some { snap := { status := 1 } } }, 0, { role := .service }, by decide +kernel⟩,
    ⟨on .ready, 0, { role := .service }, by decide +kernel⟩,
    ⟨{ on .ready with tick := 80000000000, sessions := State.reset.sessions.set 0 (some { snap := { status := 1 } }) }, 0, { snap := { status := 1 } }, by decide +kernel⟩,
    ⟨{ on .ready with dram := Vector.replicate 2 { trained := 1 }, mirrorNext := 1, nv := { staging := [{ sequence := 1, length := 16000 }] } }, { sequence := 1, length := 16000 }, by decide +kernel⟩⟩

/-- The hypotheses of Obligations.SupplyRows. -/
theorem test_witness_SupplyRows :
    (∃ (s : State) (a : Nat) (b : Nat) (us : Nat), s.modState ≠ .off ∧ max a b < 19500 ∧ 100 ≤ us ∧ s.supply.pfWarn = false) ∧
    (∃ (s : State) (a : Nat) (b : Nat), s.modState ≠ .off ∧ 20400 ≤ max a b) ∧
    (∃ (s : State) (a : Nat) (b : Nat) (us : Nat), s.alone 2 = true ∧ holdupFrom s.modState = true ∧ s.supply.resetHeld = none ∧ max a b < 18000 ∧ 20 ≤ us) ∧
    (∃ (s : State) (a : Nat) (b : Nat) (us : Nat), s.alone 2 = true ∧ s.modState = .reset ∧ max a b < 18000 ∧ 20 ≤ us) ∧
    (∃ (s : State) (mv : Nat) (us : Nat), s.modState ≠ .off ∧ mv < 20400 ∧ 1000 ≤ us ∧ s.supply.goodB = true) ∧
    (∃ (s : State) (mv : Nat) (us : Nat), s.modState ≠ .off ∧ 20400 < mv ∧ 50000 ≤ us ∧ s.supply.goodA = false) ∧
    (∃ (s : State) (mv : Nat) (us : Nat), s.modState = .holdup ∧ 20400 < mv ∧ 50000 ≤ us ∧ s.supply.copierPending = none) ∧
    (∃ (s : State) (mv : Nat), s.modState = .holdup ∧ mv < 20000) ∧
    (∃ (s : State) (mv : Nat), s.modState = .holdup ∧ mv < 18000) ∧
    (∃ (s : State) (q : Sess) (v : Byte), v.toNat ≤ 1 ∧ s.admits q 0x2004 1 v.toNat = true) ∧
    (∃ (s : State) (q : Sess), s.admits q 0x2004 5 1 = true) :=
  ⟨⟨on .ready, 19499, 0, 100, by decide +kernel⟩,
    ⟨on .ready, 19499, 20400, by decide +kernel⟩,
    ⟨on .building, 17999, 0, 20, by decide +kernel⟩,
    ⟨on .reset, 17999, 0, 20, by decide +kernel⟩,
    ⟨{ on .ready with supply := { goodB := true } }, 20399, 1000, by decide +kernel⟩,
    ⟨on .ready, 20401, 50000, by decide +kernel⟩,
    ⟨on .holdup, 20401, 50000, by decide +kernel⟩,
    ⟨on .holdup, 19999, by decide +kernel⟩,
    ⟨on .holdup, 17999, by decide +kernel⟩,
    ⟨on .ready .operator, 0, 1, by decide +kernel⟩,
    ⟨on .ready .operator, 0, by decide +kernel⟩⟩

/-- The hypotheses of Obligations.ThermalRows. -/
theorem test_witness_ThermalRows :
    (∃ (s : State), s.modState ≠ .off) ∧
    (∃ (s : State) (n : SensorId), s.excludedSensor n.val = false ∧ 3 ≤ s.supply.badRun.getD n.val 0 ∧ s.supply.excluded = 0 ∧ s.alone 3 = true ∧ (s.supply.firstFault = none ∨ s.supply.firstFault = some 6)) ∧
    (∃ (s : State) (n : SensorId), s.excludedSensor n.val = false ∧ 3 ≤ s.supply.badRun.getD n.val 0 ∧ s.supply.excluded ≠ 0 ∧ s.alone 3 = true ∧ s.supply.resetHeld = none ∧ s.modState = .building) ∧
    (∃ (s : State) (n : SensorId) (v : Int), s.modState ≠ .off ∧ s.modState ≠ .thermalOff ∧ n.val < 16 ∧ s.excludedSensor n.val = false ∧ 12000 ≤ v) ∧
    (∃ (s : State) (d : Nat), s.supply.stage1At = some d ∧ s.supply.level = 2 ∧ d + 80000000 * s.nat 0x9012 1 ≤ s.tick) ∧
    (∃ (s : State), s.modState = .thermalOff ∧ (s.hottest 19 s.supply.temps).1 < 9500 ∧ s.supply.copierPending = none ∧ s.supply.temps ≠ []) :=
  ⟨⟨on .ready, by decide +kernel⟩,
    ⟨{ on .ready with supply := { badRun := [0, 0, 0, 0, 3] } }, 4, by decide +kernel⟩,
    ⟨{ on .building with supply := { badRun := [0, 0, 0, 0, 3], excluded := 1 } }, 4, by decide +kernel⟩,
    ⟨on .ready, 4, 12000, by decide +kernel⟩,
    ⟨{ on .ready with tick := 100000000000, supply := { stage1At := some 0, level := 2 } }, 0, by decide +kernel⟩,
    ⟨{ on .thermalOff with supply := { temps := List.replicate 19 9000 } }, by decide +kernel⟩⟩

/-- The hypotheses of Obligations.StoredFormInflates. -/
theorem test_witness_StoredFormInflates : ∃ (b : Bytes), 0 < b.length ∧ b.length ≤ 65536 :=
  ⟨[1], by decide +kernel⟩

/-- The hypotheses of Obligations.FrameEngines. -/
theorem test_witness_FrameEngines :
    (∃ (s : State) (i : Instr) (t : State), i ∈ ([.setMarkSpeed 3, .setJumpLimits 3, .setPower 3, .setFocus 3, .setLaserDelays 3, .setCorner 3, .setpoint 3, .seam 3, .label 3] : List Instr) ∧ exec i s = .next t) ∧
    (∃ (s : State) (i : Instr) (t : State), i ∈ ([.jump 3, .mark 3, .dwell 3, .tokenSignal 3, .tokenWait 3, .groupBegin 3, .groupEnd 3, .preempt 3, .layerEnd 3, .endWord 3, .tokenWaitSatisfied 3, .seamWaitEnd 3, .tokenTimeout 3, .claimDecision 3, .waitBound 3, .preemption 3, .bufferEmptyStall 3, .stallResume 3, .stealAttempt 3, .readyTimeout 3] : List Instr) ∧ exec i s = .next t) :=
  ⟨⟨State.reset, .setMarkSpeed 3, _, by simp, rfl⟩,
    ⟨State.reset, .jump 3, _, by simp, rfl⟩⟩

/-- The hypotheses of Obligations.FrameEvents. -/
theorem test_witness_FrameEvents :
    (∃ (s : State) (i : Instr) (t : State), i ∈ ([.linkStartup 2, .linkAlign 2 5 7 90, .linkIdentify 2, .linkUp 2, .startupTimeout 2, .linkRetry 2, .upstreamFrame 2 ((some 0)), .auxResponse 2 4, .auxTimeout 2, .headTemperatureStale 2, .anomalyStart 2] : List Instr) ∧ exec i s = .next t) ∧
    (∃ (s : State) (i : Instr) (t : State), i ∈ ([.enableDone 2, .enaOff 2, .chatterCleared 2 2, .standstillTimeout 2, .inPosition 2, .stopComplete 2, .encoderEdge 2 true false, .sincosSample 2 500 600] : List Instr) ∧ exec i s = .next t) ∧
    (∃ (s : State) (i : Instr) (t : State), i ∈ ([.camFrameStart 2 3, .camLongPacket 2 3 0x2B true true ([1]), .camFrameEnd 2 3, .frameTimeout 2, .exposureEnd 2, .trigPeriod 2, .scaleDone 3 ([]), .planeTransparent 3] : List Instr) ∧ exec i s = .next t) ∧
    (∃ (s : State) (i : Instr) (t : State), i ∈ ([.outputFrameBoundary, .flattenDone, .dpHpd true ([]) ([]), .dpRetrain ([]), .writebackFault true, .ntcReading 3 9] : List Instr) ∧ exec i s = .next t) ∧
    (∃ (s : State) (i : Instr) (t : State), i ∈ ([.secondBoundary, .tickAnchor, .ppsEnd, .syncLoss, .latchEdge 1 true, .ptpSync 1 7 (⟨8, 4⟩) true true, .ptpDelayMessage 1 ((.pdelayResp 800 4000 9)) 3 true, .ptpAnnounce 1 3 4 5 true ([]) true, .ptpForward 1 2 3 (⟨8, true⟩) 9 3, .announceReceiptTimeout 1 ([])] : List Instr) ∧ exec i s = .next t) ∧
    (∃ (s : State) (i : Instr) (t : State), i ∈ ([.refresh 1, .zqShort 1, .neighbourRefresh 1 3 9, .refreshWindowEnd 1, .ageRaise 1] : List Instr) ∧ exec i s = .next t) ∧
    (∃ (s : State) (i : Instr) (t : State), i ∈ ([.eventRecordTaken, .pageProgram true, .flushInterval true, .ringBlockErase true, .mirrorWrite] : List Instr) ∧ exec i s = .next t) ∧
    (∃ (s : State) (i : Instr) (t : State), i ∈ ([.pfWarn 17999 30000 100, .pfWarnCleared 17999 30000, .inputRestored true 19000 100, .vioLow 19000, .vioRestored 19000, .throttleStage2, .oscTrim, .housekeepingRound ([9000, 12000])] : List Instr) ∧ exec i s = .next t) ∧
    (∃ (s : State) (i : Instr) (t : State), i ∈ ([.inputLost true 19000 100, .firmwareFailover] : List Instr) ∧ exec i s = .next t) :=
  ⟨⟨on .ready, .upstreamFrame 2 (some 0), _, by simp, rfl⟩,
    ⟨on .ready, .enaOff 2, _, by simp, rfl⟩,
    ⟨on .ready, .camFrameStart 2 3, _, by simp, rfl⟩,
    ⟨{ on .ready with comp := { width := 2, height := 2 } }, .flattenDone, _, by simp, rfl⟩,
    ⟨on .ready, .ppsEnd, _, by simp, rfl⟩,
    ⟨on .ready, .refresh 1, _, by simp, rfl⟩,
    ⟨on .ready, .eventRecordTaken, _, by simp, rfl⟩,
    ⟨on .ready, .pfWarn 17999 30000 100, _, by simp, rfl⟩,
    ⟨on .ready, .inputLost true 19000 100, _, by simp, rfl⟩⟩

/-- The hypotheses of Obligations.FrameHost. -/
theorem test_witness_FrameHost :
    (∃ (s : State) (i : Instr) (t : State), i ∈ ([.enable 0 2, .disable 0 2, .moveAbs 0 2, .moveRel 0 2, .jog 0 2, .stop 0 2, .home 0 2, .coord 0 2 12, .clear 0 2, .follow 0 2, .setPosition 0 2] : List Instr) ∧ exec i s = .next t) ∧
    (∃ (s : State) (i : Instr) (t : State), i ∈ ([.headMap 0 2, .focusMap 0 2, .gateAlign 0 2, .driftPoint 0 2, .crossCheck 0 2, .powerLin 0 2, .pdGain 0 2, .oscModel 0 2] : List Instr) ∧ exec i s = .next t) ∧
    (∃ (s : State) (i : Instr) (t : State), i ∈ ([.portCommit 0 2 1, .trigNow 0 2 1, .planeFlip 0 3 1, .planeCommit 0 3 1, .outCommit 0 1, .reflatten 0 1] : List Instr) ∧ exec i s = .next t) ∧
    (∃ (s : State) (i : Instr) (t : State), i ∈ ([.chainCommit 0 18 1, .injStart 0 18 1, .capStart 0 1, .profStart 0 18 1] : List Instr) ∧ exec i s = .next t) ∧
    (∃ (s : State) (i : Instr) (t : State), i ∈ ([.dmaSubmit 0 ([]), .compressSubmit 0 ([]), .compressCancel 0 4, .trimRequest 0 1, .trimWithdraw 0 1, .storeProfile 0 1] : List Instr) ∧ exec i s = .next t) ∧
    (∃ (s : State) (i : Instr) (t : State), i ∈ ([.packageData 0 4 true ([7]), .firmwareImage 0 ({ keyOk := true, sigOk := true, securityVersion := 5, release := true }), .firmwareActivate 0 1, .certifiedModeWrite 0 1, .tamperAck 0 1 0] : List Instr) ∧ exec i s = .next t) :=
  ⟨⟨on .ready, .enable 0 2, _, by simp, rfl⟩,
    ⟨on .ready, .headMap 0 2, _, by simp, rfl⟩,
    ⟨on .ready, .trigNow 0 2 1, _, by simp, rfl⟩,
    ⟨on .ready, .capStart 0 1, _, by simp, rfl⟩,
    ⟨on .ready, .dmaSubmit 0 [], _, by simp, rfl⟩,
    ⟨on .ready, .firmwareActivate 0 1, _, by simp, rfl⟩⟩

/-- The hypotheses of Obligations.DwellMaxBelowDwellRefused. -/
theorem test_witness_DwellMaxBelowDwellRefused : ∃ (s : State) (q : Sess) (v : BitVec 32), s.admits q 0x9012 3 v.toNat = true ∧ s.nat 0x9012 2 ≤ 60000 ∧ v.toNat < s.nat 0x9012 2 :=
  ⟨(on .ready).put 0x9012 2 60000, 0, 59999, by decide +kernel⟩

/-- The hypotheses of Obligations.PlaneCommitRefused. -/
theorem test_witness_PlaneCommitRefused : ∃ (s : State) (q : Sess) (k : PlaneId), s.admits q (0x7100 + k.val) 0x12 1 = true ∧ (8192 < (s.stagedPlane k).srcW ∨ 16 * (s.stagedPlane k).dstW < (s.stagedPlane k).srcW ∨ 4 * (s.stagedPlane k).dstH < (s.stagedPlane k).srcH) :=
  ⟨(on .ready).put 0x7103 5 8193, 0, 3, by decide +kernel⟩

/-- The hypotheses of Obligations.SetTimeRule. -/
theorem test_witness_SetTimeRule :
    (∃ (s : State) (q : Sess) (d : Bytes), s.admits q 0x8000 3 d.length = true ∧ d.length = 12 ∧ s.noStep = false ∧ leAt d 8 4 ≤ 999999999 ∧ (¬ ((s.time.status = 2 ∨ s.time.status = 3 ∨ s.time.status = 5) ∧ s.anyPtp = true))) ∧
    (∃ (s : State) (q : Sess) (d : Bytes), s.admits q 0x8000 3 d.length = true ∧ d.length = 12 ∧ s.noStep = false ∧ leAt d 8 4 ≤ 999999999 ∧ (s.time.status = 2 ∨ s.time.status = 3 ∨ s.time.status = 5) ∧ s.anyPtp = true) ∧
    (∃ (s : State) (q : Sess) (d : Bytes), s.admits q 0x8000 3 d.length = true ∧ d.length = 12 ∧ s.noStep = false ∧ 999999999 < leAt d 8 4) ∧
    (∃ (s : State) (q : Sess) (d : Bytes), s.admits q 0x8000 3 d.length = true ∧ d.length = 12 ∧ (s.modState = .building ∨ s.modState = .paused ∨ s.modState = .service ∨ (s.modState = .armed ∧ s.time.scheduled.isSome = true))) :=
  ⟨⟨on .ready, 0, ([3, 0, 0, 0, 0, 0, 0, 0, 9, 0, 0, 0] : Bytes), by decide +kernel⟩,
    ⟨{ on .ready with time := { status := 2, role := 3 } }, 0, ([3, 0, 0, 0, 0, 0, 0, 0, 9, 0, 0, 0] : Bytes), by decide +kernel⟩,
    ⟨on .ready, 0, ([3, 0, 0, 0, 0, 0, 0, 0, 0, 202, 154, 59] : Bytes), by decide +kernel⟩,
    ⟨on .building, 0, ([3, 0, 0, 0, 0, 0, 0, 0, 9, 0, 0, 0] : Bytes), by decide +kernel⟩⟩

/-- The hypotheses of Obligations.FrameUnits. -/
theorem test_witness_FrameUnits :
    (∃ (s : State) (i : Instr) (t : State), i ∈ ([.laserUnavailable 2 true true, .laserAvailable 2 9, .emitReadback 2 true, .hfaultUnavailable 2, .linkLost 2, .powerSlot 2, .samplePair 2] : List Instr) ∧ exec i s = .next t) ∧
    (∃ (s : State) (i : Instr) (t : State), i ∈ ([.update, .standinRoute, .handBack, .heldRemaindersLost, .layerEndForced 3, .keepoutRelease 3] : List Instr) ∧ exec i s = .next t) ∧
    (∃ (s : State) (i : Instr) (t : State), i ∈ ([.takeover ([(3, 2)]) ({ corrected := [5] }) ([4])] : List Instr) ∧ exec i s = .next t) ∧
    (∃ (s : State) (i : Instr) (t : State), i ∈ ([.trimStart, .trimEnd true ([])] : List Instr) ∧ exec i s = .next t) ∧
    (∃ (s : State) (i : Instr) (t : State), i ∈ ([.deposit 3, .ledgerTileFill 2 5 true, .ledgerSweep 2 5, .lookaheadResult 3] : List Instr) ∧ exec i s = .next t) ∧
    (∃ (s : State) (i : Instr) (t : State), i ∈ ([.laneRun 3, .feedbackReturned 5, .axisLaneRun 5 9, .injectionEnd 5, .captureDone] : List Instr) ∧ exec i s = .next t) ∧
    (∃ (s : State) (i : Instr) (t : State), i ∈ ([.indexPulse 2 true false, .axisFeedbackLost 2, .layerStageStart, .brakeRelease 2, .outputOverload 3] : List Instr) ∧ exec i s = .next t) ∧
    (∃ (s : State) (i : Instr) (t : State), i ∈ ([.contextSpill, .contextFill (⟨4, true⟩), .compressChunk] : List Instr) ∧ exec i s = .next t) ∧
    (∃ (s : State) (i : Instr) (t : State), i ∈ ([.translationFault .dma 2 5 90000 true 7, .faultTimeout, .tlbInvalidate 5 6] : List Instr) ∧ exec i s = .next t) ∧
    (∃ (s : State) (i : Instr) (t : State), i ∈ ([.dmaChunk 5] : List Instr) ∧ exec i s = .next t) ∧
    (∃ (s : State) (i : Instr) (t : State), i ∈ ([.patrolScrub 1 ([]), .deviceMarked 1 4] : List Instr) ∧ exec i s = .next t) ∧
    (∃ (s : State) (i : Instr) (t : State), i ∈ ([.readingTimeout, .calAborted, .calDone .power, .recordCommitDone ([])] : List Instr) ∧ exec i s = .next t) ∧
    (∃ (s : State) (i : Instr) (t : State), i ∈ ([.profilePeriod 2 24000, .stepInEdge 2 true, .switchChange 2 2 true, .stall 2 1 2 3 4 5 6, .homingTimeout 2, .sensorExcluded 4] : List Instr) ∧ exec i s = .next t) ∧
    (∃ (s : State) (i : Instr) (t : State), i ∈ ([.scanBoundary ([])] : List Instr) ∧ exec i s = .next t) :=
  ⟨⟨on .ready, .emitReadback 2 true, _, by simp, rfl⟩,
    ⟨on .ready, .update, _, by simp, rfl⟩,
    ⟨on .ready, .takeover [(3, 2)] { corrected := [5] } [4], _, by simp, rfl⟩,
    ⟨on .ready, .trimStart, _, by simp, rfl⟩,
    ⟨on .ready, .deposit 3, _, by simp, rfl⟩,
    ⟨on .ready, .laneRun 3, _, by simp, rfl⟩,
    ⟨on .ready, .outputOverload 3, _, by simp, rfl⟩,
    ⟨on .ready, .contextSpill, _, by simp, rfl⟩,
    ⟨on .ready, .faultTimeout, _, by simp, rfl⟩,
    ⟨on .ready, .dmaChunk 5, _, by simp, rfl⟩,
    ⟨on .ready, .deviceMarked 1 4, _, by simp, rfl⟩,
    ⟨on .ready, .readingTimeout, _, by simp, rfl⟩,
    ⟨on .ready, .sensorExcluded 4, _, by simp, rfl⟩,
    ⟨on .ready, .scanBoundary [], _, by simp, rfl⟩⟩

/-- The hypotheses of Obligations.FrameSessions. -/
theorem test_witness_FrameSessions :
    (∃ (s : State) (i : Instr) (t : State), i ∈ ([.readReq 0 ([1, 2]), .subscribeReq 0 ([1, 2]), .echoReq 0 ([1, 2]), .cyclic 0 3] : List Instr) ∧ exec i s = .next t) ∧
    (∃ (s : State) (i : Instr) (t : State), i ∈ ([.announceReceived ([1, 2]), .nodeUnheard 5, .announceSend, .ringFrameForward true true true false ([]), .ringPort true true] : List Instr) ∧ exec i s = .next t) ∧
    (∃ (s : State) (i : Instr) (t : State), i ∈ ([.sessionOpened 3 2 (⟨77, true⟩) (.commission true), .sessionTimeout 0, .handshakeFailed 77 1 none, .lockoutExpiry 77, .keyUpdate 0 true, .snapHoldExpiry 0] : List Instr) ∧ exec i s = .next t) ∧
    (∃ (s : State) (i : Instr) (t : State), i ∈ ([.auxRead 0 2 3, .auxWrite 0 2 3 4] : List Instr) ∧ exec i s = .next t) ∧
    (∃ (s : State) (i : Instr) (t : State), i ∈ ([.powerReading 0 5, .calStop 0, .calAcceptCommit 0, .calAcceptDiscard 0, .recordImport 0 1 ([])] : List Instr) ∧ exec i s = .next t) ∧
    (∃ (s : State) (i : Instr) (t : State), i ∈ ([.dutyWrite 0 3 4 9, .velLimitWrite 0 2 500, .accelLimitWrite 0 2 500] : List Instr) ∧ exec i s = .next t) ∧
    (∃ (s : State) (i : Instr) (t : State), i ∈ ([.scheduledStartWrite 0 ([]), .layerStartAtWrite 0 ([]), .resumeArm 0 1, .resumeDiscard 0 1, .snapOpen 0 1, .snapClose 0 1] : List Instr) ∧ exec i s = .next t) ∧
    (∃ (s : State) (i : Instr) (t : State), i ∈ ([.markedDeviceClear 0 1 0xFF, .accountWrite 0 3 2 ([2])] : List Instr) ∧ exec i s = .next t) ∧
    (∃ (s : State) (i : Instr) (t : State), i ∈ ([.latchDataRead 0 1] : List Instr) ∧ exec i s = .next t) ∧
    (∃ (s : State) (i : Instr) (t : State), i ∈ ([.start 0, .pause 0, .abort 0, .disarm 0, .clearSafe 0, .enterService 0, .leaveService 0] : List Instr) ∧ exec i s = .next t) :=
  ⟨⟨on .ready, .echoReq 0 [1, 2], _, by simp, rfl⟩,
    ⟨on .ready, .ringPort true true, _, by simp, rfl⟩,
    ⟨on .ready, .lockoutExpiry 77, _, by simp, rfl⟩,
    ⟨on .ready, .auxRead 0 2 3, _, by simp, rfl⟩,
    ⟨on .ready, .calStop 0, _, by simp, rfl⟩,
    ⟨on .ready, .dutyWrite 0 3 4 9, _, by simp, rfl⟩,
    ⟨on .ready, .snapOpen 0 1, _, by simp, rfl⟩,
    ⟨on .ready, .markedDeviceClear 0 1 0xFF, _, by simp, rfl⟩,
    ⟨on .ready, .latchDataRead 0 1, _, by simp, rfl⟩,
    ⟨on .ready, .enterService 0, _, by simp, rfl⟩⟩

theorem test_witness_NodeRows_2 : ∃ (s : State) (m : Bytes) (v : Bytes) (tag : Bytes) (k : Bytes), choyrServed s.modState = true ∧ s.openMessage m = .ok [(0x10, v), (0x11, tag)] ∧ leAt m 4 1 = 1 ∧ v.length = 16 ∧ tag.length = 16 ∧ leAt v 2 1 = 3 ∧ leAt v 0 2 ≤ 16383 ∧ s.nv.domainKey = some k ∧ tag ≠ fixedText 16 (Config.gmac k (m.take 16 ++ element 0x10 v)) := by
  by_cases h : (List.replicate 16 0 : Bytes) = fixedText 16 (Config.gmac [1] ((message 2 1 9 0 5 (element 0x10 ([9, 0, 3, 1, 0, 0, 0, 0, 1, 2, 3, 4, 5, 6, 7, 8] : Bytes) ++ element 0x11 (List.replicate 16 0 : Bytes)) : Bytes).take 16 ++ element 0x10 ([9, 0, 3, 1, 0, 0, 0, 0, 1, 2, 3, 4, 5, 6, 7, 8] : Bytes)))
  · exact ⟨({ on .ready with nv := { domainKey := some [1] } } : State), (message 2 1 9 0 5 (element 0x10 ([9, 0, 3, 1, 0, 0, 0, 0, 1, 2, 3, 4, 5, 6, 7, 8] : Bytes) ++ element 0x11 (List.replicate 16 1 : Bytes)) : Bytes), ([9, 0, 3, 1, 0, 0, 0, 0, 1, 2, 3, 4, 5, 6, 7, 8] : Bytes), (List.replicate 16 1 : Bytes), [1], by decide +kernel, of_ok (by decide +kernel), by decide +kernel, by decide +kernel, by decide +kernel, by decide +kernel, by decide +kernel, by decide +kernel, by
      have e : (message 2 1 9 0 5 (element 0x10 ([9, 0, 3, 1, 0, 0, 0, 0, 1, 2, 3, 4, 5, 6, 7, 8] : Bytes) ++ element 0x11 (List.replicate 16 1 : Bytes)) : Bytes).take 16 = (message 2 1 9 0 5 (element 0x10 ([9, 0, 3, 1, 0, 0, 0, 0, 1, 2, 3, 4, 5, 6, 7, 8] : Bytes) ++ element 0x11 (List.replicate 16 0 : Bytes)) : Bytes).take 16 := by decide +kernel
      rw [e, ← h]; decide⟩
  · exact ⟨({ on .ready with nv := { domainKey := some [1] } } : State), (message 2 1 9 0 5 (element 0x10 ([9, 0, 3, 1, 0, 0, 0, 0, 1, 2, 3, 4, 5, 6, 7, 8] : Bytes) ++ element 0x11 (List.replicate 16 0 : Bytes)) : Bytes), ([9, 0, 3, 1, 0, 0, 0, 0, 1, 2, 3, 4, 5, 6, 7, 8] : Bytes), (List.replicate 16 0 : Bytes), [1], by decide +kernel, of_ok (by decide +kernel), by decide +kernel, by decide +kernel, by decide +kernel, by decide +kernel, by decide +kernel, by decide +kernel, h⟩

theorem test_witness_StepRunsFront : ∃ (s : State) (c : Instr) (rest : List Instr), s.pending = c :: rest :=
  ⟨{ on .ready with pending := [.disarm 0, .start 0] }, .disarm 0, [.start 0], rfl⟩

theorem test_witness_TickPeriod_1 : ∃ s : State, s.pending = [] ∧ s.clockRuns = false :=
  ⟨State.reset, by decide +kernel⟩

theorem test_witness_TickPeriod_2 : ∃ s : State, s.pending = [] ∧ s.clockRuns = true ∧ (s.tick + 1) % 40 = 0 ∧
    hourUnit ≤ s.nv.hourTicks + 1 ∧ ∃ (a : AxisId) (d : Nat), s.axes[a].doneAt = some d ∧ d ≤ s.tick + 1 :=
  ⟨{ ax (fun x => { x with st := .enabling, doneAt := some 40 }) with
      tick := 39, supply := { pllLocked := true }, nv := { hourTicks := hourUnit - 1 } },
    by decide +kernel, by decide +kernel, by decide +kernel, by decide +kernel, 2, 40, by decide +kernel, by decide +kernel⟩

theorem test_witness_TickPeriod_3 : ∃ s : State, s.pending = [] ∧ s.clockRuns = true ∧ s.nv.hourTicks + 1 < hourUnit :=
  ⟨{ on .ready with supply := { pllLocked := true } }, by decide +kernel⟩

theorem test_witness_WordCodec_1 : ∃ w : VWord, wordValid w = true := ⟨.jump false 10 20, by decide⟩

theorem test_witness_WordCodec_2 : ∃ (n : Nat) (w : VWord), n < 2 ^ 64 ∧ decodeWord n = .ok w :=
  ⟨encodeWord (.jump false 10 20), .jump false 10 20, by decide +kernel, of_ok (by decide +kernel)⟩

theorem test_witness_StepKeepsMemory : ∃ s t : State, Memory.wf s.mem = true ∧ step s = .next t :=
  ⟨{ on .ready with pending := [.faultResolved 5 1 [(64, 9)]] }, _, by decide +kernel, rfl⟩

theorem test_witness_StoreLaws_1 : ∃ m : List Host.Cell, Memory.wf m = true := ⟨tables, by decide +kernel⟩

theorem test_witness_StoreLaws_2 : ∃ s : State, dictWf s.dict = true := ⟨(on .ready).put 0x1010 1 7, by decide +kernel⟩

end Sys2Proof.Tests
end

section
/-!
The refused plane commit (R218): its status, the planes and the composition it leaves, and its event record 0x7203, which
neither the audit record nor the answer that follow take back.
-/
namespace Sys2Proof.Machine

/-- A record that is sent removes no record: Q_EVT and the waiting records only grow. -/
theorem emit_keeps_recorded {s : State} {ty : Nat} (h : Recorded s ty) (type source : Nat) (body : List Int) :
    Recorded (s.emit type source body) ty := by
  obtain ⟨r, hr, rfl⟩ := h
  refine ⟨r, ?_, rfl⟩
  rw [List.mem_append] at hr ⊢
  unfold State.emit
  dsimp only
  split
  · exact hr.imp_left (List.mem_append_left _)
  · split
    · simpa only [State.bump_frame] using hr
    · simpa only [State.waited_frame] using hr.imp_right (List.mem_append_left _)

/-- An audited write removes no record. -/
theorem audit_keeps_recorded {s : State} {ty : Nat} (h : Recorded s ty) (q : Sess) (index sub status : Nat) :
    Recorded (s.audit q index sub status) ty := by
  unfold State.audit
  split
  · split
    · exact emit_keeps_recorded h _ _ _
    · exact h
  · exact h

/-- With a credit for its area, and none of the area waiting, a record stands in Q_EVT once it is sent. -/
theorem emit_recorded {s : State} {type : Nat} (hc : s.evtCredit (areaOf type) = true)
    (hw : s.evtWaits (areaOf type) = false) (source : Nat) (body : List Int) :
    Recorded (s.emit type source body) type := by
  have hroom : (s.evtCredit (areaOf type) && !s.evtWaits (areaOf type)) = true := by simp [hc, hw]
  rw [Recorded, emit_evtQ s hroom]
  exact ⟨_, List.mem_append_left _ (List.mem_append_right _ (List.mem_singleton_self _)), rfl⟩

/-- A commit that is refused puts its status entry and sends record 0x7203. -/
theorem commitStatus_refused (s : State) (index sub what : Nat) {status : Nat} (h : status ≠ 0) :
    s.commitStatus index sub what status = ((s.put index sub status).emit 0x7203 255 [what, status], status) := by
  simp only [State.commitStatus, if_neg h]

/-- Record 0x7203 of a refused commit is recorded where area 7 has room. -/
theorem commitStatus_recorded {s : State} (hc : s.evtCredit 7 = true) (hw : s.evtWaits 7 = false)
    (index sub what : Nat) {status : Nat} (h : status ≠ 0) :
    Recorded (s.commitStatus index sub what status).1 0x7203 := by
  rw [commitStatus_refused s index sub what h]
  exact emit_recorded hc hw _ _

/-- A plane wider than 8,192, or scaled down by more than 16:1 or 4:1, fails the check first of all (R218). -/
theorem planeCheck_scale {s : State} {k : PlaneId} {c : PlaneConfig}
    (h : 8192 < c.srcW ∨ 16 * c.dstW < c.srcW ∨ 4 * c.dstH < c.srcH) : s.planeCheck k c = 0x0701 := by
  simp only [State.planeCheck, if_pos h]

/-- A granted commit of a plane that fails the check is the refused commit on the state with the session's record noted,
then the audit record and the answer. -/
theorem execPlaneCommit_refused {s : State} {q : Sess} {k : PlaneId} {e : Nat}
    (ha : s.admits q (0x7100 + k.val) 0x12 1 = true) (he : (s.touch q).planeCheck k (s.stagedPlane k) = e) (h0 : e ≠ 0) :
    execPlaneCommit q k 1 s = .next
      ((((s.touch q).commitStatus (0x7100 + k.val) 0x13 k.val e).1.audit q (0x7100 + k.val) 0x12 e).reply e) := by
  obtain ⟨n, rfl⟩ := Nat.exists_eq_succ_of_ne_zero h0
  have hs : (s.touch q).stagedPlane k = s.stagedPlane k := rfl
  unfold execPlaneCommit
  dsimp only
  rw [show ((1 : Byte).toNat : Int) = 1 from rfl, host_of_admits ha, if_neg (by decide), hs, he]
  rfl

/-- Settles O57: the check of R218 fails first of all, and the refused commit puts its status entry and sends its record,
neither of which is a plane's or the composition's. -/
theorem planeCommitRefused : Obligations.PlaneCommitRefused := by
  intro s q k ha hscale
  have hcheck : (s.touch q).planeCheck k (s.stagedPlane k) = 0x0701 := planeCheck_scale hscale
  refine ⟨_, execPlaneCommit_refused ha hcheck (by decide), rfl, ?_, ?_, fun hc hw => ?_⟩
  · simp [commitStatus_refused]
  · simp [commitStatus_refused]
  · exact audit_keeps_recorded (commitStatus_recorded (s := s.touch q) hc hw _ _ _ (by decide)) _ _ _ _

end Sys2Proof.Machine
end

section
/-!
SetTime (R292): the order in which a granted write is refused, and the device time and status that an accepted one leaves.
-/
namespace Sys2Proof.Machine

/-- The octets of the number that an octet string spells are that string. -/
@[simp] theorem leBytes_leNat (b : Bytes) : leBytes b.length (leNat b) = b := by
  induction b with
  | nil => rfl
  | cons x xs ih =>
    have hlow : BitVec.ofNat 8 (x.toNat + 256 * leNat xs) = x := BitVec.eq_of_toNat_eq (by simp; omega)
    have hrest : (x.toNat + 256 * leNat xs) / 256 = leNat xs := by omega
    simp [leNat, leBytes, hlow, hrest, ih]

/-- A field that lies within its octets is written back as it was read. -/
theorem leBytes_leAt {b : Bytes} {o n : Nat} (h : o + n ≤ b.length) : leBytes n (leAt b o n) = slice b o n := by
  have hlen : (slice b o n).length = n := by simp [slice]; omega
  have hback := leBytes_leNat (slice b o n)
  rwa [hlen] at hback

/-- Device time at the instant that 12 octets spell reads as those octets with Fraction 0 (R287). -/
theorem timeBytes_instantOf {d : Bytes} (hlen : d.length = 12) (hns : leAt d 8 4 ≤ 999999999) :
    timeBytes (instantOf d * nsUnit) = d ++ [0, 0] := by
  have hsec : instantOf d * nsUnit / secUnit = leAt d 0 8 := by
    simp only [instantOf, secUnit, nsUnit]; omega
  have hnano : instantOf d * nsUnit / nsUnit % 1000000000 = leAt d 8 4 := by
    simp only [instantOf, nsUnit]; omega
  have hfrac : leBytes 2 (instantOf d * nsUnit % nsUnit / 65536) = [0, 0] := by
    rw [Nat.mul_mod_left]; rfl
  have hsplit : slice d 0 8 ++ slice d 8 4 = d := by
    simp only [slice, List.drop_zero]
    rw [List.take_of_length_le (l := d.drop 8) (by simp [hlen]), List.take_append_drop]
  rw [timeBytes, hsec, hnano, hfrac, leBytes_leAt (by omega), leBytes_leAt (by omega), hsplit]

/-- An anchor that is latched leaves the time counter and its status. -/
@[simp] theorem latchAnchor_now_status (s : State) (a : Anchor) (cause : Nat) :
    (s.latchAnchor a cause).time.now = s.time.now ∧ (s.latchAnchor a cause).time.status = s.time.status := by
  simp [State.latchAnchor, State.anchorRecord]

/-- A step of device time reaches its target and leaves the status. -/
@[simp] theorem stepTime_now_status (s : State) (target source : Nat) :
    (s.stepTime target source).time.now = target ∧ (s.stepTime target source).time.status = s.time.status := by
  simp [State.stepTime]

/-- A change of the time status leaves device time, and the status is the new one. -/
@[simp] theorem timeStatus_now_status (s : State) (n : Nat) :
    (s.timeStatus n).time.now = s.time.now ∧ (s.timeStatus n).time.status = n := by
  unfold State.timeStatus
  split
  · next h => exact ⟨rfl, h⟩
  · simp

/-- The status that answers a granted write of SetTime: 0, or the refusal of R292; 0x0202 for another length (R278). -/
def State.setTimeVerdict (s : State) (d : Bytes) : Nat :=
  if s.noStep then 0x0105
  else if d.length ≠ 12 then 0x0202
  else if 999999999 < leAt d 8 4 then 0x0201
  else if (s.time.status = 2 ∨ s.time.status = 3 ∨ s.time.status = 5) ∧ s.anyPtp then 0x0203
  else 0

/-- The state after device time is set to the instant that 12 octets spell (R292): from INVALID the status is SET before
the step, so that the step's anchor record has it. -/
def State.setTimeTo (s : State) (d : Bytes) : State :=
  if s.time.status = 0 then
    let t := ({ s with time := { s.time with status := 1 } } : State).stepTime (instantOf d * nsUnit) 1
    t.emit 0x8102 255 [0, 1, t.time.offset]
  else (s.stepTime (instantOf d * nsUnit) 1).timeStatus 1

/-- Device time that is set is the instant written, with status SET. -/
theorem setTimeTo_now_status (s : State) (d : Bytes) :
    (s.setTimeTo d).time.now = instantOf d * nsUnit ∧ (s.setTimeTo d).time.status = 1 := by
  unfold State.setTimeTo
  split <;> simp

/-- SET_TIME is a host write that is refused by its verdict, or sets device time. -/
theorem execSetTime_eq (q : Sess) (d : Bytes) (s : State) :
    execSetTime q d s = .next (s.host q 0x8000 3 d.length fun r =>
      if r.setTimeVerdict d = 0 then accepted (r.setTimeTo d) else refused r (r.setTimeVerdict d)) := by
  unfold execSetTime
  congr 2
  funext r
  unfold State.setTimeVerdict
  by_cases hstep : r.noStep = true
  · simp [hstep]
  by_cases hlen : d.length = 12
  case neg => simp [hstep, hlen]
  by_cases hns : 999999999 < leAt d 8 4
  · simp [hstep, hlen, hns]
  by_cases hptp : (r.time.status = 2 ∨ r.time.status = 3 ∨ r.time.status = 5) ∧ r.anyPtp = true
  · simp [hstep, hlen, hns, hptp]
  by_cases hvalid : r.time.status = 0 <;> simp [hstep, hlen, hns, hptp, hvalid, State.setTimeTo]

/-- The noting of a session's record leaves the verdict, which is about the module's state, time and dictionary. -/
theorem touch_setTimeVerdict (s : State) (q : Sess) (d : Bytes) :
    (s.touch q).setTimeVerdict d = s.setTimeVerdict d := rfl

/-- A granted SET_TIME with verdict 0 is answered 0 and sets device time, with status SET. -/
theorem setTime_accepted {s : State} {q : Sess} {d : Bytes} (ha : s.admits q 0x8000 3 d.length = true)
    (hv : s.setTimeVerdict d = 0) : Answers (.setTime q d) s fun t =>
      t.answer = 0 ∧ t.time.status = 1 ∧ t.time.now = instantOf d * nsUnit := by
  obtain ⟨hnow, hstatus⟩ := setTimeTo_now_status (s.touch q) d
  refine ⟨_, execSetTime_eq q d s, ?_⟩
  rw [host_of_admits ha]
  simp [touch_setTimeVerdict, hv, accepted, hnow, hstatus, State.reply]

/-- A granted SET_TIME with another verdict is answered with it, and leaves device time and its status. -/
theorem setTime_refused {s : State} {q : Sess} {d : Bytes} {e : Nat} (ha : s.admits q 0x8000 3 d.length = true)
    (hv : s.setTimeVerdict d = e) (he : e ≠ 0) : Answers (.setTime q d) s fun t => t.answer = e ∧ t.time = s.time := by
  refine ⟨_, execSetTime_eq q d s, ?_⟩
  rw [host_of_admits ha]
  simp [touch_setTimeVerdict, hv, he, refused, State.reply]

/-- No step is made in BUILDING, PAUSED and SERVICE, nor in ARMED with a start scheduled (R293). -/
theorem noStep_iff (s : State) : s.noStep = true ↔
    s.modState = .building ∨ s.modState = .paused ∨ s.modState = .service ∨
      (s.modState = .armed ∧ s.time.scheduled.isSome = true) := by
  simp [State.noStep, or_assoc]

/-- Settles O58: each clause's conditions fix the verdict of R292, which decides the answer and what becomes of device
time. -/
theorem setTimeRule : Obligations.SetTimeRule := by
  intro s q d ha hlen
  refine ⟨fun hstep hns hptp => ?_, fun hstep hns hlocked hptp => ?_, fun hstep hns => ?_, fun hstate => ?_⟩
  · have hv : s.setTimeVerdict d = 0 := by
      simp only [State.setTimeVerdict, hstep, hlen, Nat.not_lt.mpr hns, hptp, ne_eq, not_true_eq_false,
        Bool.false_eq_true, if_false]
    obtain ⟨t, hexec, hans, hstatus, hnow⟩ := setTime_accepted ha hv
    exact ⟨t, hexec, hans, hstatus, hnow ▸ timeBytes_instantOf hlen hns⟩
  · exact setTime_refused ha
      (by simp [State.setTimeVerdict, hstep, hlen, Nat.not_lt.mpr hns, hlocked, hptp]) (by decide)
  · exact setTime_refused ha (by simp [State.setTimeVerdict, hstep, hlen, hns]) (by decide)
  · exact setTime_refused ha (by simp [State.setTimeVerdict, (noStep_iff s).mpr hstate]) (by decide)

end Sys2Proof.Machine
end

section
/-!
The refused write of ThrottleDwellMax (R354): its length and range pass, and the consistency check after them, which is the
last of R278, answers 0x0203 and leaves the entry as it was.
-/
namespace Sys2Proof.Machine

/-- A little-endian field has as many octets as asked for. -/
@[simp] theorem length_leBytes (n v : Nat) : (leBytes n v).length = n := by
  induction n generalizing v with
  | zero => rfl
  | succ n ih => rw [leBytes, List.length_cons, ih]

/-- A number that fits its little-endian field is read back from it. -/
theorem leNat_leBytes {n v : Nat} (h : v < 256 ^ n) : leNat (leBytes n v) = v := by
  induction n generalizing v with
  | zero => rw [Nat.lt_one_iff.mp h]; rfl
  | succ n ih =>
    have hrest : v / 256 < 256 ^ n := Nat.div_lt_of_lt_mul (by rwa [Nat.pow_succ'] at h)
    rw [leBytes, leNat, ih hrest, BitVec.toNat_ofNat]
    omega

/-- An entry that a host writes has its value where the settings are kept. -/
theorem SettingsKept.val_eq {s t : State} (h : SettingsKept s t) {ix sub : Nat} (hk : hostKey (entryKey ix sub) = true) :
    t.val ix sub = s.val ix sub := by
  rw [State.val, State.val, h _ hk]

/-- A value is in range from the entry's lowest to its highest value. -/
theorem inRange_iff {d : Entry} {v : Int} : inRange d v = true ↔ d.lo ≤ v ∧ v ≤ d.hi := by
  rw [inRange, Bool.and_eq_true, decide_eq_true_iff, decide_eq_true_iff]

/-- A value of the entry's length and range is refused with 0x0203 when the entries it would leave disagree, and nothing
changes (R278 step 4). -/
theorem writeNumber_inconsistent {s : State} {q : Sess} {ix sub : Nat} {d : Entry} {data : Bytes}
    (hstate : s.stateRefusal ix sub = none) (hlen : data.length = typeSize d.ty)
    (hrange : inRange d (decodeValue d.ty data) = true) (hvalue : s.valueOk ix sub (decodeValue d.ty data) = true)
    (hcons : (s.putEntry q ix sub (decodeValue d.ty data)).consistentAfter ix sub = false) :
    s.writeNumber q ix sub d data = refused s 0x0203 := by
  simp [State.writeNumber, hstate, hlen, hrange, hvalue, hcons]

/-- A granted write of an entry without a command of its own, which the entry refuses, is answered with the entry's status
and keeps every setting. -/
theorem entryWrite_refused {s : State} {q : Sess} {index : BitVec 16} {sub : Byte} {data : Bytes} {e : Nat}
    (ha : s.admits q index.toNat sub.toNat (leNat data) = true)
    (hcmd : s.commandWrite q index.toNat sub.toNat data = none)
    (hw : (s.touch q).writeEntry q index.toNat sub.toNat data = refused (s.touch q) e) :
    Answers (.entryWrite q index sub data) s fun t => t.answer = e ∧ SettingsKept s t := by
  have hexec : exec (.entryWrite q index sub data) s
      = .next (((s.touch q).audit q index.toNat sub.toNat e).reply e) := by
    change execEntryWrite q index sub data s = _
    simp only [execEntryWrite, State.writeWhole, hcmd, host_of_admits ha, hw, refused]
  exact ⟨_, hexec, rfl, audit_settings (s.touch q) q _ _ e⟩

/-- The row of ThrottleDwellMax in the table of chapter 17. -/
def dwellMaxEntry : Entry := ⟨0x9012, 0x1, 1, 3, 1, .u32, .rwb, true, 30000, 0, 600000, "ThrottleDwellMax", "ms"⟩

/-- The dictionary finds ThrottleDwellMax in its row. -/
theorem findEntry_dwellMax : findEntry 0x9012 3 = some dwellMaxEntry := by decide +kernel

/-- A write of ThrottleDwellMax is the write of its numeric entry: no security store takes it. -/
theorem writeEntry_dwellMax (s : State) (q : Sess) (data : Bytes) :
    s.writeEntry q 0x9012 3 data = s.writeNumber q 0x9012 3 dwellMaxEntry data := by
  rw [State.writeEntry, findEntry_dwellMax]
  rfl

/-- ThrottleDwellMax lives in the dictionary. -/
theorem putEntry_dwellMax (s : State) (q : Sess) (v : Int) : s.putEntry q 0x9012 3 v = s.put 0x9012 3 v := rfl

/-- What ThrottleDwellMax has to agree with is ThrottleDwell (R354). -/
theorem consistentAfter_dwellMax (t : State) :
    t.consistentAfter 0x9012 3 = decide (t.nat 0x9012 2 ≤ t.nat 0x9012 3) := rfl

/-- A new ThrottleDwellMax below ThrottleDwell does not agree with it. -/
theorem dwellMax_inconsistent {s : State} (q : Sess) {n : Nat} (h : n < s.nat 0x9012 2) :
    (s.putEntry q 0x9012 3 n).consistentAfter 0x9012 3 = false := by
  have hmax : (s.put 0x9012 3 n).nat 0x9012 3 = n := by rw [State.nat, val_put_self, Int.toNat_natCast]
  have hdwell : (s.put 0x9012 3 n).nat 0x9012 2 = s.nat 0x9012 2 := by
    rw [State.nat, val_put_ne s (by decide), State.nat]
  rw [putEntry_dwellMax, consistentAfter_dwellMax, hmax, hdwell]
  exact decide_eq_false (Nat.not_le.mpr h)

/-- Settles O56: the value is below ThrottleDwell and so within the range of ThrottleDwellMax, and the check of R354 is what
refuses it. -/
theorem dwellMaxBelowDwellRefused : Obligations.DwellMaxBelowDwellRefused := by
  intro s q v ha hdwell hbelow
  have hback : leNat (leBytes 4 v.toNat) = v.toNat := leNat_leBytes v.isLt
  have hvalue : decodeValue dwellMaxEntry.ty (leBytes 4 v.toNat) = v.toNat := congrArg Nat.cast hback
  have hmax : (v.toNat : Int) ≤ 600000 := by omega
  have hrange : inRange dwellMaxEntry v.toNat = true := inRange_iff.mpr ⟨Int.natCast_nonneg _, hmax⟩
  have hw : (s.touch q).writeEntry q 0x9012 3 (leBytes 4 v.toNat) = refused (s.touch q) 0x0203 := by
    rw [writeEntry_dwellMax]
    refine writeNumber_inconsistent rfl (length_leBytes _ _) (hvalue ▸ hrange) rfl ?_
    rw [hvalue]
    exact dwellMax_inconsistent q hbelow
  obtain ⟨t, hexec, hans, hkept⟩ := entryWrite_refused (index := 0x9012) (sub := 3) (hback.symm ▸ ha) rfl hw
  exact ⟨t, hexec, hans, hkept.val_eq (by decide +kernel)⟩

end Sys2Proof.Machine
end
